-- ==== Sys2Proof/Word.lean ====
section
/-! DEFINITION. The word types of the hardware, and the encoded form of its operations (spec 30_encoding.md: there are no
instruction words; an operation is selected by a bus address, an event letter, a control byte or a counter value). -/

namespace Sys2Proof

/-- Every access of every agent moves one byte (R50, R60). -/
abbrev Byte := BitVec 8

/-- An address of the 16-bit CPU address space (R50, R55). -/
abbrev Addr := BitVec 16

/-- A framebuffer pixel, alpha, red, green, blue from the top (R95). -/
abbrev Pixel := BitVec 32

/-- The bits of the DMA control byte other than its mode (R86). -/
structure DmaFlags where
  /-- bit 7: the source counter addresses VRAM -/
  srcv : Bool
  /-- bit 6: the destination counter addresses VRAM -/
  dstv : Bool
  /-- bit 5: the increment is the name-table width in bytes -/
  vert : Bool
  /-- bit 4: the increment is negated -/
  rev : Bool
  /-- bit 3: stored, no effect -/
  bit3 : Bool
deriving DecidableEq, Repr

/-- The eight transfer modes (R87). -/
inductive DmaMode where
  | copy | fill | masked | apa | pal | spr | sprclr | altfill
deriving DecidableEq, Repr

/-- One operation as it is written down: the four trace lines of R100, and for the operations that run inside an event the
selector its format of opcode_table.json names (log 13). -/
inductive Selector where
  /-- `(C, n)` -/
  | cyc (n : Nat)
  /-- `(S)` -/
  | sync
  /-- `(R, $aaaa)` -/
  | rd (a : Addr)
  /-- `(W, $aaaa, $vv)` -/
  | wr (a : Addr) (v : Byte)
  /-- format DCTL: step `i` of a transfer under control byte `b` (R186, R86) -/
  | dctl (b : Byte) (i : Nat)
  /-- format HSUB, tick step 1: the fetch slot at sub-tile phase `p` (R260) -/
  | fetchSlot (p : BitVec 3)
  /-- format HSUB, tick step 2: the shift-register load at sub-tile phase `p` (R276, R277) -/
  | loadSlot (p : BitVec 3)
  /-- format HCOUNT: the `k`-th action when the horizontal counter has become `h` (R223) -/
  | hcount (h : Nat) (k : Nat)
  /-- format VCOUNT: the action when the vertical counter has become `v` (R235) -/
  | vcount (v : Nat)
deriving DecidableEq, Repr

/-- The four interface events, the only operations the CPU collaborator issues (R4). -/
def Selector.isEvent : Selector → Bool
  | .cyc _ => true
  | .sync => true
  | .rd _ => true
  | .wr _ _ => true
  | .dctl _ _ => false
  | .fetchSlot _ => false
  | .loadSlot _ => false
  | .hcount _ _ => false
  | .vcount _ => false

end Sys2Proof
end

