-- ==== Sys2Proof/Config.lean ====
section
/-! DEFINITION. The implementation parameters of 00_scope.md section 5, each under one name with the value the spec lists as
its default (log 9), and the inputs of a run that the spec leaves without a value (log 3, 4, 5). -/

namespace Sys2Proof.Config

/-- bytes of video RAM (R13) -/
abbrev vramSize : Nat := 16384
/-- bytes of palette RAM (R14) -/
abbrev palSize : Nat := 64
/-- bytes of sprite RAM (R15, D30) -/
abbrev sprSize : Nat := 160
/-- bytes of a bank window (R55) -/
abbrev windowSize : Nat := 16384
/-- pages of ROM (R16, D47) -/
abbrev romPages : Nat := 2
/-- pages of cartridge RAM (R16, D47) -/
abbrev cartPages : Nat := 2
/-- first address of the I/O window (R51, D3) -/
abbrev ioBase : Nat := 0x00C0
/-- bytes of the I/O window (R51) -/
abbrev ioSize : Nat := 64
/-- what an unmapped access reads (R303, D6) -/
abbrev openBus : Byte := 0xFF
/-- VDP ticks per CPU cycle are `clkNum / clkDen` (R220, C1) -/
abbrev clkNum : Nat := 9
/-- see `clkNum` -/
abbrev clkDen : Nat := 2
/-- end of the visible part of a line (R227, D23) -/
abbrev hVisEnd : Nat := 320
/-- start of horizontal sync (R228) -/
abbrev hSyncStart : Nat := 344
/-- end of horizontal sync (R228) -/
abbrev hSyncEnd : Nat := 376
/-- start of the early prefetch window (R229) -/
abbrev hEarly : Nat := 416
/-- ticks of a line (R234) -/
abbrev hTotal : Nat := 432
/-- end of the visible lines (R238, D24) -/
abbrev vVisEnd : Nat := 240
/-- start of vertical sync (R240) -/
abbrev vSyncStart : Nat := 243
/-- end of vertical sync (R241) -/
abbrev vSyncEnd : Nat := 246
/-- lines of a frame (R242) -/
abbrev vTotal : Nat := 262
/-- framebuffer width (R17, D28) -/
abbrev fbW : Nat := 384
/-- framebuffer height (R17, D28) -/
abbrev fbH : Nat := 288
/-- framebuffer column of the first visible pixel (R42, D28) -/
abbrev fbX0 : Nat := 32
/-- framebuffer row of the first visible pixel (R42, D28) -/
abbrev fbY0 : Nat := 24
/-- framebuffer contents before the first write (R331, D28) -/
abbrev fbInit : Pixel := 0xFF000000
/-- ticks between pixel latches at 2 bits per pixel (R278, D21) -/
abbrev pixPeriod2bpp : Nat := 1
/-- ticks between pixel latches at 4 bits per pixel (R278, D21) -/
abbrev pixPeriod4bpp : Nat := 2
/-- byte written by the sprite-clear DMA mode (R196, D42) -/
abbrev spriteClearValue : Byte := 0xFF

/-- The chroma table (R282, D19). -/
def chroma (c : BitVec 2) : Byte :=
  match c.toNat with
  | 0 => 0
  | 1 => 64
  | 2 => 128
  | _ => 192

/-- The luma table (R282, D19). -/
def luma (c : BitVec 2) : Byte :=
  match c.toNat with
  | 0 => 0
  | 1 => 21
  | 2 => 42
  | _ => 63

/-- The two granularities of the DMA interlock (R185, C3). -/
inductive Interlock where
  /-- the arbiter is asked before every step -/
  | perStep
  /-- the arbiter is asked before step 0 only -/
  | perBlock
deriving DecidableEq, Repr

/-- The design of record asks before every step (R185, D38; log 12). -/
def dmaInterlock : Interlock := .perStep

/-- The constraints of 00_scope.md section 5 between the parameters. -/
def ok : Bool :=
  hTotal % 8 == 0 && hEarly % 8 == 0 && hVisEnd % 8 == 0 &&
  decide (hVisEnd < hEarly) && hEarly + 16 == hTotal &&
  decide (vVisEnd < vSyncStart) && decide (vSyncStart ≤ vSyncEnd) && decide (vSyncEnd ≤ vTotal) &&
  decide (fbX0 + hVisEnd ≤ fbW) && decide ((chroma 3).toNat + (luma 3).toNat ≤ 255) &&
  decide (sprSize ≤ 256) && palSize == 2 ^ 6 && decide (ioBase + ioSize ≤ 65536)

/-- The byte memories of the machine (R13 to R16). -/
inductive Region where
  | ram0 | ram1 | rom | cart | vram | pal | spr
deriving DecidableEq, Repr

/-- DESIGN CHOICE (log 3): INIT_MEM, the launch contents of a memory, a launch input without a value (R46, D62, U1). A free
value: nothing constrains it. -/
opaque initMem : Region → Nat → Byte

/-- DESIGN CHOICE (log 4): ROM_IMAGE, the loaded ROM, a launch input without a value (R335, D62). A free value. -/
opaque romImage : Nat → Byte

/-- DESIGN CHOICE (log 5): KeyMatrix, the byte the keyboard provider gives for a column when the `n`-th bus read of the run
samples it (R171, D61, U21). A free value. -/
opaque keyMatrix : Nat → BitVec 4 → Byte

end Sys2Proof.Config
end

