-- ==== Sys2Proof/Syntax.lean ====
section
/-! DEFINITION. The operations of the hardware: one constructor for each of the 99 rows of spec/opcode_table.json. -/

namespace Sys2Proof

/-- The operations. Formats IO and BUS: `v` is the byte written, `n` the low bits of an audio or unmapped offset, `off` the
offset in a bank window (R55, R80). Format EVENT: `n` cycles (R4). Format DCTL: `f` the control bits other than the mode, `i`
the index of the step in its transfer (R86, R186). Format HSUB: `p` the sub-tile phase (R260). -/
inductive Instr where
  /-- RD VCTL, R121 (0x00C0) -/
  | rdVctl
  /-- WR VCTL, R122 (0x00C0) -/
  | wrVctl (v : Byte)
  /-- RD VENA, R123 (0x00C1) -/
  | rdVena
  /-- WR VENA, R124 (0x00C1) -/
  | wrVena (v : Byte)
  /-- RD VSTA, R125 (0x00C2) -/
  | rdVsta
  /-- WR VSTA, R126 (0x00C2) -/
  | wrVsta (v : Byte)
  /-- RD VWAIT, R128 (0x00C3) -/
  | rdVwait
  /-- WR VWAIT, R127 (0x00C3) -/
  | wrVwait (v : Byte)
  /-- RD SCRH, R129 (0x00C4) -/
  | rdScrh
  /-- WR SCRH, R130 (0x00C4) -/
  | wrScrh (v : Byte)
  /-- RD SCRHF, R131 (0x00C5) -/
  | rdScrhf
  /-- WR SCRHF, R132 (0x00C5) -/
  | wrScrhf (v : Byte)
  /-- RD SCRV, R133 (0x00C6) -/
  | rdScrv
  /-- WR SCRV, R134 (0x00C6) -/
  | wrScrv (v : Byte)
  /-- RD SCRVF, R135 (0x00C7) -/
  | rdScrvf
  /-- WR SCRVF, R136 (0x00C7) -/
  | wrScrvf (v : Byte)
  /-- RD NTSIZE, R137 (0x00C8) -/
  | rdNtsize
  /-- WR NTSIZE, R138 (0x00C8) -/
  | wrNtsize (v : Byte)
  /-- RD NTBASE, R139 (0x00C9) -/
  | rdNtbase
  /-- WR NTBASE, R140 (0x00C9) -/
  | wrNtbase (v : Byte)
  /-- RD PALA, R141 (0x00CA) -/
  | rdPala
  /-- WR PALA, R142 (0x00CA) -/
  | wrPala (v : Byte)
  /-- RD PALD, R143 (0x00CB) -/
  | rdPald
  /-- WR PALD, R144 (0x00CB) -/
  | wrPald (v : Byte)
  /-- RD SPRA, R145 (0x00CC) -/
  | rdSpra
  /-- WR SPRA, R146 (0x00CC) -/
  | wrSpra (v : Byte)
  /-- RD SPRD, R147 (0x00CD) -/
  | rdSprd
  /-- WR SPRD, R148 (0x00CD) -/
  | wrSprd (v : Byte)
  /-- RD DSRCL, R149 (0x00D0) -/
  | rdDsrcl
  /-- WR DSRCL, R150 (0x00D0) -/
  | wrDsrcl (v : Byte)
  /-- RD DSRCH, R151 (0x00D1) -/
  | rdDsrch
  /-- WR DSRCH, R152 (0x00D1) -/
  | wrDsrch (v : Byte)
  /-- RD DDSTL, R153 (0x00D2) -/
  | rdDdstl
  /-- WR DDSTL, R154 (0x00D2) -/
  | wrDdstl (v : Byte)
  /-- RD DDSTH, R155 (0x00D3) -/
  | rdDdsth
  /-- WR DDSTH, R156 (0x00D3) -/
  | wrDdsth (v : Byte)
  /-- RD DCTL, R157 (0x00D4) -/
  | rdDctl
  /-- WR DCTL, R158 (0x00D4) -/
  | wrDctl (v : Byte)
  /-- RD DRUN, R159 (0x00D5) -/
  | rdDrun
  /-- WR DRUN, R160 (0x00D5) -/
  | wrDrun (v : Byte)
  /-- RD DFILL, R161 (0x00D8) -/
  | rdDfill
  /-- WR DFILL, R162 (0x00D8) -/
  | wrDfill (v : Byte)
  /-- RD DPAGE, R163 (0x00D9) -/
  | rdDpage
  /-- WR DPAGE, R164 (0x00D9) -/
  | wrDpage (v : Byte)
  /-- RD BANK2, R165 (0x00DA) -/
  | rdBank2
  /-- WR BANK2, R166 (0x00DA) -/
  | wrBank2 (v : Byte)
  /-- RD BANK3, R167 (0x00DB) -/
  | rdBank3
  /-- WR BANK3, R168 (0x00DB) -/
  | wrBank3 (v : Byte)
  /-- RD KCOL, R169 (0x00DC) -/
  | rdKcol
  /-- WR KCOL, R170 (0x00DC) -/
  | wrKcol (v : Byte)
  /-- RD KDATA, R171 (0x00DD) -/
  | rdKdata
  /-- WR KDATA, R172 (0x00DD) -/
  | wrKdata (v : Byte)
  /-- RD AUDIO, R173 (0x00E0) -/
  | rdAudio (n : BitVec 4)
  /-- WR AUDIO, R174 (0x00E0) -/
  | wrAudio (n : BitVec 4) (v : Byte)
  /-- RD UNMAPPED, R175 (0x00CE) -/
  | rdUnmappedCE (n : BitVec 1)
  /-- WR UNMAPPED, R176 (0x00CE) -/
  | wrUnmappedCE (n : BitVec 1) (v : Byte)
  /-- RD UNMAPPED, R175 (0x00D6) -/
  | rdUnmappedD6 (n : BitVec 1)
  /-- WR UNMAPPED, R176 (0x00D6) -/
  | wrUnmappedD6 (n : BitVec 1) (v : Byte)
  /-- RD UNMAPPED, R175 (0x00DE) -/
  | rdUnmappedDE (n : BitVec 1)
  /-- WR UNMAPPED, R176 (0x00DE) -/
  | wrUnmappedDE (n : BitVec 1) (v : Byte)
  /-- RD UNMAPPED, R175 (0x00F0) -/
  | rdUnmappedF0 (n : BitVec 4)
  /-- WR UNMAPPED, R176 (0x00F0) -/
  | wrUnmappedF0 (n : BitVec 4) (v : Byte)
  /-- RD MEM0, R110 (0x0000) -/
  | rdMem0 (off : BitVec 14)
  /-- WR MEM0, R111 (0x0000) -/
  | wrMem0 (off : BitVec 14) (v : Byte)
  /-- RD MEM1, R110 (0x4000) -/
  | rdMem1 (off : BitVec 14)
  /-- WR MEM1, R111 (0x4000) -/
  | wrMem1 (off : BitVec 14) (v : Byte)
  /-- RD MEM2, R110 (0x8000) -/
  | rdMem2 (off : BitVec 14)
  /-- WR MEM2, R111 (0x8000) -/
  | wrMem2 (off : BitVec 14) (v : Byte)
  /-- RD MEM3, R110 (0xC000) -/
  | rdMem3 (off : BitVec 14)
  /-- WR MEM3, R111 (0xC000) -/
  | wrMem3 (off : BitVec 14) (v : Byte)
  /-- CYC n, R4 -/
  | cycN (n : Nat)
  /-- SYNC, R220 -/
  | sync
  /-- DMA COPY, R190 (0x00) -/
  | dmaCopy (f : DmaFlags) (i : Nat)
  /-- DMA FILL, R191 (0x01) -/
  | dmaFill (f : DmaFlags) (i : Nat)
  /-- DMA MASKED, R192 (0x02) -/
  | dmaMasked (f : DmaFlags) (i : Nat)
  /-- DMA APA, R193 (0x03) -/
  | dmaApa (f : DmaFlags) (i : Nat)
  /-- DMA PAL, R194 (0x04) -/
  | dmaPal (f : DmaFlags) (i : Nat)
  /-- DMA SPR, R195 (0x05) -/
  | dmaSpr (f : DmaFlags) (i : Nat)
  /-- DMA SPRCLR, R196 (0x06) -/
  | dmaSprclr (f : DmaFlags) (i : Nat)
  /-- DMA ALTFILL, R197 (0x07) -/
  | dmaAltfill (f : DmaFlags) (i : Nat)
  /-- FETCH NAME, R262 (0x0) -/
  | fetchName
  /-- FETCH ATTR, R263 (0x2) -/
  | fetchAttr
  /-- FETCH GFX0, R265 (0x4) -/
  | fetchGfx0
  /-- FETCH GFX1, R266 (0x6) -/
  | fetchGfx1
  /-- FETCH IDLE, R260 (0x1) -/
  | fetchIdle (p : BitVec 3)
  /-- LOAD SHIFT_LO, R276 (0x4) -/
  | loadShiftLo
  /-- LOAD SHIFT_HI, R277 (0x0) -/
  | loadShiftHi
  /-- HT H_VIS_END, R227 (320) -/
  | htHVisEnd
  /-- HT H_SYNC_START, R228 (344) -/
  | htHSyncStart
  /-- HT H_SYNC_END, R228 (376) -/
  | htHSyncEnd
  /-- HT H_EARLY.1, R229 (416) -/
  | htHEarly1
  /-- HT H_EARLY.2, R230 (416) -/
  | htHEarly2
  /-- HT H_EARLY.3, R231 (416) -/
  | htHEarly3
  /-- HT H_EARLY.4, R232 (416) -/
  | htHEarly4
  /-- HT H_TOTAL, R234 (432) -/
  | htHTotal
  /-- VT V_VIS_END, R238 (240) -/
  | vtVVisEnd
  /-- VT V_SYNC_START, R240 (243) -/
  | vtVSyncStart
  /-- VT V_SYNC_END, R241 (246) -/
  | vtVSyncEnd
  /-- VT V_TOTAL, R242 (262) -/
  | vtVTotal
deriving DecidableEq, Repr

end Sys2Proof
end

