-- ==== Sys2Proof/WellFormed.lean ====
section
/-! DEFINITION. Which operations have an encoding: an access of window 0 does not lie under the I/O window (R51, R116), a step index
belongs to a transfer of at most 256 steps (R181), an idle fetch slot has an odd phase (R260). -/

namespace Sys2Proof

/-- The 64 addresses of window 0 that the I/O window hides from the CPU (R51, R116). -/
def underIoWindow (off : BitVec 14) : Bool :=
  decide (Config.ioBase ≤ off.toNat) && decide (off.toNat < Config.ioBase + Config.ioSize)

/-- A transfer has at most 256 steps, so a step index is below 256 (R181). -/
def stepIndexOk (i : Nat) : Bool := decide (i < 256)

/-- The scheduler makes no access at the odd phases (R260). -/
def idlePhase (p : BitVec 3) : Bool := p.getLsbD 0

/-- Well-formedness, checked for every constructor. -/
def Instr.wf : Instr → Bool
  | .rdVctl => true
  | .wrVctl _ => true
  | .rdVena => true
  | .wrVena _ => true
  | .rdVsta => true
  | .wrVsta _ => true
  | .rdVwait => true
  | .wrVwait _ => true
  | .rdScrh => true
  | .wrScrh _ => true
  | .rdScrhf => true
  | .wrScrhf _ => true
  | .rdScrv => true
  | .wrScrv _ => true
  | .rdScrvf => true
  | .wrScrvf _ => true
  | .rdNtsize => true
  | .wrNtsize _ => true
  | .rdNtbase => true
  | .wrNtbase _ => true
  | .rdPala => true
  | .wrPala _ => true
  | .rdPald => true
  | .wrPald _ => true
  | .rdSpra => true
  | .wrSpra _ => true
  | .rdSprd => true
  | .wrSprd _ => true
  | .rdDsrcl => true
  | .wrDsrcl _ => true
  | .rdDsrch => true
  | .wrDsrch _ => true
  | .rdDdstl => true
  | .wrDdstl _ => true
  | .rdDdsth => true
  | .wrDdsth _ => true
  | .rdDctl => true
  | .wrDctl _ => true
  | .rdDrun => true
  | .wrDrun _ => true
  | .rdDfill => true
  | .wrDfill _ => true
  | .rdDpage => true
  | .wrDpage _ => true
  | .rdBank2 => true
  | .wrBank2 _ => true
  | .rdBank3 => true
  | .wrBank3 _ => true
  | .rdKcol => true
  | .wrKcol _ => true
  | .rdKdata => true
  | .wrKdata _ => true
  | .rdAudio _ => true
  | .wrAudio _ _ => true
  | .rdUnmappedCE _ => true
  | .wrUnmappedCE _ _ => true
  | .rdUnmappedD6 _ => true
  | .wrUnmappedD6 _ _ => true
  | .rdUnmappedDE _ => true
  | .wrUnmappedDE _ _ => true
  | .rdUnmappedF0 _ => true
  | .wrUnmappedF0 _ _ => true
  | .rdMem0 off => !underIoWindow off
  | .wrMem0 off _ => !underIoWindow off
  | .rdMem1 _ => true
  | .wrMem1 _ _ => true
  | .rdMem2 _ => true
  | .wrMem2 _ _ => true
  | .rdMem3 _ => true
  | .wrMem3 _ _ => true
  | .cycN _ => true
  | .sync => true
  | .dmaCopy _ i => stepIndexOk i
  | .dmaFill _ i => stepIndexOk i
  | .dmaMasked _ i => stepIndexOk i
  | .dmaApa _ i => stepIndexOk i
  | .dmaPal _ i => stepIndexOk i
  | .dmaSpr _ i => stepIndexOk i
  | .dmaSprclr _ i => stepIndexOk i
  | .dmaAltfill _ i => stepIndexOk i
  | .fetchName => true
  | .fetchAttr => true
  | .fetchGfx0 => true
  | .fetchGfx1 => true
  | .fetchIdle p => idlePhase p
  | .loadShiftLo => true
  | .loadShiftHi => true
  | .htHVisEnd => true
  | .htHSyncStart => true
  | .htHSyncEnd => true
  | .htHEarly1 => true
  | .htHEarly2 => true
  | .htHEarly3 => true
  | .htHEarly4 => true
  | .htHTotal => true
  | .vtVVisEnd => true
  | .vtVSyncStart => true
  | .vtVSyncEnd => true
  | .vtVTotal => true

end Sys2Proof
end

