-- ==== Sys2Proof/Decode.lean ====
section
/-! DEFINITION. The decoder, total on every encoded operation and rejecting by name, and the encoder. The I/O map is the table of
30_encoding.md R80; the window test comes first (R51); the mode codes are R87; the thresholds are those of R223 and R235. -/

namespace Sys2Proof

/-- Why a selector names no operation. -/
inductive DecodeError where
  /-- a step index of 256 or more: no transfer has that many steps (R181) -/
  | noSuchStep (i : Nat)
  /-- no shift-register load at this phase (R276, R277) -/
  | noLoadAtPhase (p : BitVec 3)
  /-- no `k`-th action at this horizontal count (R223) -/
  | noHorizontalAction (h k : Nat)
  /-- no action at this vertical count (R235) -/
  | noVerticalAction (v : Nat)
deriving DecidableEq, Repr

/-- What the decoder answers. -/
inductive Decoded where
  | instr (i : Instr)
  | reject (why : DecodeError)
deriving DecidableEq, Repr

/-- The operation, if there is one. -/
def Decoded.toOption : Decoded → Option Instr
  | .instr i => some i
  | .reject _ => none

/-- An address is in the I/O window (R51). -/
def inIoWindow (a : Addr) : Bool :=
  decide (Config.ioBase ≤ a.toNat) && decide (a.toNat < Config.ioBase + Config.ioSize)

/-- The I/O map, reads: the operation at offset `r` of the I/O window (R80, R81, R120). -/
def decodeIoRead (r : Nat) : Instr :=
  match r with
  | 0x00 => .rdVctl
  | 0x01 => .rdVena
  | 0x02 => .rdVsta
  | 0x03 => .rdVwait
  | 0x04 => .rdScrh
  | 0x05 => .rdScrhf
  | 0x06 => .rdScrv
  | 0x07 => .rdScrvf
  | 0x08 => .rdNtsize
  | 0x09 => .rdNtbase
  | 0x0A => .rdPala
  | 0x0B => .rdPald
  | 0x0C => .rdSpra
  | 0x0D => .rdSprd
  | 0x10 => .rdDsrcl
  | 0x11 => .rdDsrch
  | 0x12 => .rdDdstl
  | 0x13 => .rdDdsth
  | 0x14 => .rdDctl
  | 0x15 => .rdDrun
  | 0x18 => .rdDfill
  | 0x19 => .rdDpage
  | 0x1A => .rdBank2
  | 0x1B => .rdBank3
  | 0x1C => .rdKcol
  | 0x1D => .rdKdata
  | _ =>
    if r = 0x0E ∨ r = 0x0F then .rdUnmappedCE (BitVec.ofNat 1 r)
    else if r = 0x16 ∨ r = 0x17 then .rdUnmappedD6 (BitVec.ofNat 1 r)
    else if r = 0x1E ∨ r = 0x1F then .rdUnmappedDE (BitVec.ofNat 1 r)
    else if r < 0x30 then .rdAudio (BitVec.ofNat 4 r)
    else .rdUnmappedF0 (BitVec.ofNat 4 r)

/-- The I/O map, writes of the byte `v` (R80, R81, R120). -/
def decodeIoWrite (r : Nat) (v : Byte) : Instr :=
  match r with
  | 0x00 => .wrVctl v
  | 0x01 => .wrVena v
  | 0x02 => .wrVsta v
  | 0x03 => .wrVwait v
  | 0x04 => .wrScrh v
  | 0x05 => .wrScrhf v
  | 0x06 => .wrScrv v
  | 0x07 => .wrScrvf v
  | 0x08 => .wrNtsize v
  | 0x09 => .wrNtbase v
  | 0x0A => .wrPala v
  | 0x0B => .wrPald v
  | 0x0C => .wrSpra v
  | 0x0D => .wrSprd v
  | 0x10 => .wrDsrcl v
  | 0x11 => .wrDsrch v
  | 0x12 => .wrDdstl v
  | 0x13 => .wrDdsth v
  | 0x14 => .wrDctl v
  | 0x15 => .wrDrun v
  | 0x18 => .wrDfill v
  | 0x19 => .wrDpage v
  | 0x1A => .wrBank2 v
  | 0x1B => .wrBank3 v
  | 0x1C => .wrKcol v
  | 0x1D => .wrKdata v
  | _ =>
    if r = 0x0E ∨ r = 0x0F then .wrUnmappedCE (BitVec.ofNat 1 r) v
    else if r = 0x16 ∨ r = 0x17 then .wrUnmappedD6 (BitVec.ofNat 1 r) v
    else if r = 0x1E ∨ r = 0x1F then .wrUnmappedDE (BitVec.ofNat 1 r) v
    else if r < 0x30 then .wrAudio (BitVec.ofNat 4 r) v
    else .wrUnmappedF0 (BitVec.ofNat 4 r) v

/-- The bank window number of an address (R55). -/
def addrWindow (a : Addr) : BitVec 2 := a.extractLsb' 14 2

/-- The offset of an address in its bank window (R55). -/
def addrOffset (a : Addr) : BitVec 14 := a.extractLsb' 0 14

/-- A read of an address of a bank window (R55, R110). -/
def decodeBankRead (a : Addr) : Instr :=
  match (addrWindow a).toNat with
  | 0 => .rdMem0 (addrOffset a)
  | 1 => .rdMem1 (addrOffset a)
  | 2 => .rdMem2 (addrOffset a)
  | _ => .rdMem3 (addrOffset a)

/-- A write to an address of a bank window (R55, R111). -/
def decodeBankWrite (a : Addr) (v : Byte) : Instr :=
  match (addrWindow a).toNat with
  | 0 => .wrMem0 (addrOffset a) v
  | 1 => .wrMem1 (addrOffset a) v
  | 2 => .wrMem2 (addrOffset a) v
  | _ => .wrMem3 (addrOffset a) v

/-- A bus read: the I/O window first (R51, R110). -/
def decodeRead (a : Addr) : Instr :=
  if inIoWindow a then decodeIoRead (a.toNat - Config.ioBase) else decodeBankRead a

/-- A bus write: the I/O window first (R51, R111). -/
def decodeWrite (a : Addr) (v : Byte) : Instr :=
  if inIoWindow a then decodeIoWrite (a.toNat - Config.ioBase) v else decodeBankWrite a v

/-- The flags of a DMA control byte (R86). -/
def dmaFlagsOf (b : Byte) : DmaFlags :=
  { srcv := b.getLsbD 7, dstv := b.getLsbD 6, vert := b.getLsbD 5, rev := b.getLsbD 4, bit3 := b.getLsbD 3 }

/-- The mode of a DMA control byte (R86, R87). -/
def dmaModeOf (b : Byte) : DmaMode :=
  match (b.extractLsb' 0 3).toNat with
  | 0 => .copy
  | 1 => .fill
  | 2 => .masked
  | 3 => .apa
  | 4 => .pal
  | 5 => .spr
  | 6 => .sprclr
  | _ => .altfill

/-- Step `i` of a transfer in a mode (R87, R186). -/
def dmaInstr (m : DmaMode) (f : DmaFlags) (i : Nat) : Instr :=
  match m with
  | .copy => .dmaCopy f i
  | .fill => .dmaFill f i
  | .masked => .dmaMasked f i
  | .apa => .dmaApa f i
  | .pal => .dmaPal f i
  | .spr => .dmaSpr f i
  | .sprclr => .dmaSprclr f i
  | .altfill => .dmaAltfill f i

/-- A DMA control byte and a step index (R86, R87, R181). All eight mode codes are defined (R98). -/
def decodeDctl (b : Byte) (i : Nat) : Decoded :=
  if stepIndexOk i then .instr (dmaInstr (dmaModeOf b) (dmaFlagsOf b) i) else .reject (.noSuchStep i)

/-- The fetch slot of a sub-tile phase (R260). -/
def decodeFetch (p : BitVec 3) : Instr :=
  match p.toNat with
  | 0 => .fetchName
  | 2 => .fetchAttr
  | 4 => .fetchGfx0
  | 6 => .fetchGfx1
  | _ => .fetchIdle p

/-- The shift-register load of a sub-tile phase (R276, R277). -/
def decodeLoad (p : BitVec 3) : Decoded :=
  match p.toNat with
  | 4 => .instr .loadShiftLo
  | 0 => .instr .loadShiftHi
  | _ => .reject (.noLoadAtPhase p)

/-- The `k`-th action at a horizontal count (R223, R227 to R232, R234). -/
def decodeHcount (h k : Nat) : Decoded :=
  if h = Config.hVisEnd ∧ k = 1 then .instr .htHVisEnd
  else if h = Config.hSyncStart ∧ k = 1 then .instr .htHSyncStart
  else if h = Config.hSyncEnd ∧ k = 1 then .instr .htHSyncEnd
  else if h = Config.hEarly ∧ k = 1 then .instr .htHEarly1
  else if h = Config.hEarly ∧ k = 2 then .instr .htHEarly2
  else if h = Config.hEarly ∧ k = 3 then .instr .htHEarly3
  else if h = Config.hEarly ∧ k = 4 then .instr .htHEarly4
  else if h = Config.hTotal ∧ k = 1 then .instr .htHTotal
  else .reject (.noHorizontalAction h k)

/-- The action at a vertical count (R235, R238, R240, R241, R242). -/
def decodeVcount (v : Nat) : Decoded :=
  if v = Config.vVisEnd then .instr .vtVVisEnd
  else if v = Config.vSyncStart then .instr .vtVSyncStart
  else if v = Config.vSyncEnd then .instr .vtVSyncEnd
  else if v = Config.vTotal then .instr .vtVTotal
  else .reject (.noVerticalAction v)

/-- The decoder. -/
def decode : Selector → Decoded
  | .cyc n => .instr (.cycN n)
  | .sync => .instr .sync
  | .rd a => .instr (decodeRead a)
  | .wr a v => .instr (decodeWrite a v)
  | .dctl b i => decodeDctl b i
  | .fetchSlot p => .instr (decodeFetch p)
  | .loadSlot p => decodeLoad p
  | .hcount h k => decodeHcount h k
  | .vcount v => decodeVcount v

/-- The DMA control byte of flags and a mode code (R86). -/
def dctlByte (f : DmaFlags) (mode : BitVec 3) : Byte :=
  BitVec.ofBool f.srcv ++ BitVec.ofBool f.dstv ++ BitVec.ofBool f.vert ++ BitVec.ofBool f.rev ++
    BitVec.ofBool f.bit3 ++ mode

/-- The encoder, from the addresses, codes and counts of spec/opcode_table.json. -/
def encode : Instr → Selector
  | .rdVctl => .rd 0x00C0
  | .wrVctl v => .wr 0x00C0 v
  | .rdVena => .rd 0x00C1
  | .wrVena v => .wr 0x00C1 v
  | .rdVsta => .rd 0x00C2
  | .wrVsta v => .wr 0x00C2 v
  | .rdVwait => .rd 0x00C3
  | .wrVwait v => .wr 0x00C3 v
  | .rdScrh => .rd 0x00C4
  | .wrScrh v => .wr 0x00C4 v
  | .rdScrhf => .rd 0x00C5
  | .wrScrhf v => .wr 0x00C5 v
  | .rdScrv => .rd 0x00C6
  | .wrScrv v => .wr 0x00C6 v
  | .rdScrvf => .rd 0x00C7
  | .wrScrvf v => .wr 0x00C7 v
  | .rdNtsize => .rd 0x00C8
  | .wrNtsize v => .wr 0x00C8 v
  | .rdNtbase => .rd 0x00C9
  | .wrNtbase v => .wr 0x00C9 v
  | .rdPala => .rd 0x00CA
  | .wrPala v => .wr 0x00CA v
  | .rdPald => .rd 0x00CB
  | .wrPald v => .wr 0x00CB v
  | .rdSpra => .rd 0x00CC
  | .wrSpra v => .wr 0x00CC v
  | .rdSprd => .rd 0x00CD
  | .wrSprd v => .wr 0x00CD v
  | .rdDsrcl => .rd 0x00D0
  | .wrDsrcl v => .wr 0x00D0 v
  | .rdDsrch => .rd 0x00D1
  | .wrDsrch v => .wr 0x00D1 v
  | .rdDdstl => .rd 0x00D2
  | .wrDdstl v => .wr 0x00D2 v
  | .rdDdsth => .rd 0x00D3
  | .wrDdsth v => .wr 0x00D3 v
  | .rdDctl => .rd 0x00D4
  | .wrDctl v => .wr 0x00D4 v
  | .rdDrun => .rd 0x00D5
  | .wrDrun v => .wr 0x00D5 v
  | .rdDfill => .rd 0x00D8
  | .wrDfill v => .wr 0x00D8 v
  | .rdDpage => .rd 0x00D9
  | .wrDpage v => .wr 0x00D9 v
  | .rdBank2 => .rd 0x00DA
  | .wrBank2 v => .wr 0x00DA v
  | .rdBank3 => .rd 0x00DB
  | .wrBank3 v => .wr 0x00DB v
  | .rdKcol => .rd 0x00DC
  | .wrKcol v => .wr 0x00DC v
  | .rdKdata => .rd 0x00DD
  | .wrKdata v => .wr 0x00DD v
  | .rdAudio n => .rd ((0xE : BitVec 12) ++ n)
  | .wrAudio n v => .wr ((0xE : BitVec 12) ++ n) v
  | .rdUnmappedCE n => .rd ((0x67 : BitVec 15) ++ n)
  | .wrUnmappedCE n v => .wr ((0x67 : BitVec 15) ++ n) v
  | .rdUnmappedD6 n => .rd ((0x6B : BitVec 15) ++ n)
  | .wrUnmappedD6 n v => .wr ((0x6B : BitVec 15) ++ n) v
  | .rdUnmappedDE n => .rd ((0x6F : BitVec 15) ++ n)
  | .wrUnmappedDE n v => .wr ((0x6F : BitVec 15) ++ n) v
  | .rdUnmappedF0 n => .rd ((0xF : BitVec 12) ++ n)
  | .wrUnmappedF0 n v => .wr ((0xF : BitVec 12) ++ n) v
  | .rdMem0 off => .rd ((0 : BitVec 2) ++ off)
  | .wrMem0 off v => .wr ((0 : BitVec 2) ++ off) v
  | .rdMem1 off => .rd ((1 : BitVec 2) ++ off)
  | .wrMem1 off v => .wr ((1 : BitVec 2) ++ off) v
  | .rdMem2 off => .rd ((2 : BitVec 2) ++ off)
  | .wrMem2 off v => .wr ((2 : BitVec 2) ++ off) v
  | .rdMem3 off => .rd ((3 : BitVec 2) ++ off)
  | .wrMem3 off v => .wr ((3 : BitVec 2) ++ off) v
  | .cycN n => .cyc n
  | .sync => .sync
  | .dmaCopy f i => .dctl (dctlByte f 0) i
  | .dmaFill f i => .dctl (dctlByte f 1) i
  | .dmaMasked f i => .dctl (dctlByte f 2) i
  | .dmaApa f i => .dctl (dctlByte f 3) i
  | .dmaPal f i => .dctl (dctlByte f 4) i
  | .dmaSpr f i => .dctl (dctlByte f 5) i
  | .dmaSprclr f i => .dctl (dctlByte f 6) i
  | .dmaAltfill f i => .dctl (dctlByte f 7) i
  | .fetchName => .fetchSlot 0
  | .fetchAttr => .fetchSlot 2
  | .fetchGfx0 => .fetchSlot 4
  | .fetchGfx1 => .fetchSlot 6
  | .fetchIdle p => .fetchSlot p
  | .loadShiftLo => .loadSlot 4
  | .loadShiftHi => .loadSlot 0
  | .htHVisEnd => .hcount 320 1
  | .htHSyncStart => .hcount 344 1
  | .htHSyncEnd => .hcount 376 1
  | .htHEarly1 => .hcount 416 1
  | .htHEarly2 => .hcount 416 2
  | .htHEarly3 => .hcount 416 3
  | .htHEarly4 => .hcount 416 4
  | .htHTotal => .hcount 432 1
  | .vtVVisEnd => .vcount 240
  | .vtVSyncStart => .vcount 243
  | .vtVSyncEnd => .vcount 246
  | .vtVTotal => .vcount 262

/-- A word of the opcode table as an encoded operation (log 2). The table's word gives a bus row its 16 address bits and no
direction; a bus word is read as address, then the data byte in bits 23..16, then the direction in bit 24 (1 = write), so a word whose
bits above the table's are zero is a READ. A word of 8 bits is a DMA control byte at step 0, a shorter one a fetch slot. -/
def tableSelector (nbits w : Nat) : Selector :=
  if nbits < 8 then .fetchSlot (BitVec.ofNat 3 w)
  else if nbits = 8 then .dctl (BitVec.ofNat 8 w) 0
  else if (w / 2 ^ 24) % 2 = 1 then .wr (BitVec.ofNat 16 w) (BitVec.ofNat 8 (w / 2 ^ 16))
  else .rd (BitVec.ofNat 16 w)

/-- The operation the decoder reads from a word of the opcode table (log 2). -/
def decodeTableWord (nbits w : Nat) : Option Instr :=
  (decode (tableSelector nbits w)).toOption

end Sys2Proof
end

