-- ==== Sys2Proof/Machine/State.lean ====
section
/-! DEFINITION. The machine state of 10_state.md (R10), as plain data grouped as that file groups it, the reasons a step can stop,
and the state after reset (R330). -/

namespace Sys2Proof.Machine

open Sys2Proof.Config (Region)

/-- A byte memory: the bytes written (or loaded) since launch, addresses strictly rising. An address that is not listed holds its
launch byte (log 3, 4, 15). -/
abbrev Memory := List Host.Cell

/-- A framebuffer: the pixels that differ from `FB_INIT`, keyed `row * FB_W + column`, keys strictly rising (R17; log 14). -/
abbrev Frame := List (Nat × Pixel)

/-- The byte memories (R13 to R16). -/
structure Memories where
  ram0 : Memory
  ram1 : Memory
  rom : Memory
  cart : Memory
  vram : Memory
  pal : Memory
  spr : Memory
deriving DecidableEq, Repr

/-- The VDP register set (R18 to R21). -/
structure VideoRegs where
  /-- control byte (R18, R82) -/
  vctl : Byte
  /-- enable byte (R18, R83) -/
  vena : Byte
  /-- status byte (R18, R83) -/
  vsta : Byte
  /-- horizontal coarse scroll (R19) -/
  scrh : Byte
  /-- horizontal fine scroll (R19) -/
  scrhf : BitVec 3
  /-- vertical coarse scroll (R19) -/
  scrv : Byte
  /-- vertical fine scroll (R19) -/
  scrvf : BitVec 3
  /-- name-table size (R20, R84) -/
  ntsize : Byte
  /-- name-table base (R20, R85) -/
  ntbase : Byte
  /-- palette address (R21) -/
  pala : BitVec 6
  /-- sprite address (R21) -/
  spra : Byte
deriving DecidableEq, Repr

/-- The DMA register set (R22 to R26). -/
structure DmaRegs where
  /-- source counter (R22) -/
  dsrc : BitVec 16
  /-- destination counter (R22) -/
  ddst : BitVec 16
  /-- control byte (R23, R86) -/
  dctl : Byte
  /-- run counter (R24) -/
  drun : Byte
  /-- data latch (R25) -/
  dfill : Byte
  /-- secondary latch (R26) -/
  dpage : Byte
deriving DecidableEq, Repr

/-- Banking and keyboard registers (R27, R28). -/
structure SysRegs where
  /-- what window 2 is bound to (R27, R90) -/
  bank2 : Byte
  /-- what window 3 is bound to (R27, R90) -/
  bank3 : Byte
  /-- keyboard column selector (R28, R91) -/
  kcol : BitVec 4
deriving DecidableEq, Repr

/-- Timing state of the VDP timing engine (R30 to R36). -/
structure Timing where
  /-- ticks executed in this line (R30) -/
  hcount : Nat
  /-- name-table column being fetched (R31) -/
  htile : BitVec 8
  /-- sub-tile phase (R31) -/
  hsub : BitVec 3
  /-- lines completed in this frame (R32) -/
  vcount : Nat
  /-- name-table row (R33) -/
  vtile : BitVec 8
  /-- pixel row inside the tile (R33) -/
  vsub : BitVec 3
  /-- horizontal border latch (R34) -/
  hborder : Bool
  /-- horizontal blank latch (R34) -/
  hblank : Bool
  /-- vertical border latch (R35) -/
  vborder : Bool
  /-- vertical blank latch (R35) -/
  vblank : Bool
  /-- horizontal VRAM-busy window (R36) -/
  hbusy : Bool
  /-- vertical VRAM-busy window (R36) -/
  vbusy : Bool
deriving DecidableEq, Repr

/-- Pixel pipeline latches (R37 to R41). -/
structure Pipeline where
  /-- tile-name latch (R37) -/
  name : Byte
  /-- attribute latch, as fetched (R38) -/
  attrF : Byte
  /-- attribute latch, active (R38) -/
  attrA : Byte
  /-- graphics byte, left half (R39) -/
  gfx0 : Byte
  /-- graphics byte, right half (R39) -/
  gfx1 : Byte
  /-- shift register (R40) -/
  sr : BitVec 16
  /-- last output pixel (R41) -/
  pix : BitVec 4
deriving DecidableEq, Repr

/-- The framebuffer and its cursors (R17, R42). -/
structure Raster where
  fb : Frame
  /-- row cursor `fb_row` (R42) -/
  row : Nat
  /-- column cursor `fb_col` (R42) -/
  col : Nat
deriving DecidableEq, Repr

/-- The machine state (R10). -/
structure State where
  /-- CPU cycle counter (R11) -/
  cpuCycles : Nat
  /-- ticks executed since reset (R12) -/
  pixelClock : Nat
  mem : Memories
  video : VideoRegs
  dma : DmaRegs
  sys : SysRegs
  /-- interrupt request level (R29, R306) -/
  irq : Bool
  tim : Timing
  pipe : Pipeline
  raster : Raster
  /-- the `FrameComplete` events so far, oldest first (R43) -/
  framesOut : List Frame
  /-- the MODEL's own field: the bytes returned by the bus reads so far, oldest first (R5 (a); log 7) -/
  readsOut : List Byte
  /-- the MODEL's own field: the operations still to come, next first (R4, R7, R100; log 1) -/
  trace : List Selector
deriving DecidableEq, Repr

/-- Why a step stops in a fault. No operation of the hardware faults (R300). -/
inductive Fault where
  /-- Raised by the write of `VWAIT`, the write of `DRUN` and a DMA step when their wait loop has not ended after a whole frame
  of cycles: a stall that never ends (R314). Safe: the machine would not return; no state that satisfies the invariants of R45
  raises it (log 6). -/
  | stalled
deriving DecidableEq, Repr

/-- Why a step is refused. -/
inductive Refusal where
  /-- Raised by `exec` for an operation without a meaning. Safe. No arm raises it. -/
  | notModelled (mnemonic : String)
  /-- Raised by `step` when no operation is pending: the run has ended (R7; log 11). Safe. -/
  | endOfTrace
  /-- Raised by `step` when the pending selector names no operation (log 10, 13). Safe: the CPU collaborator cannot issue one. -/
  | noSuchOperation (why : DecodeError)
deriving DecidableEq, Repr

namespace State

/-- The state with new CPU cycle and tick counters. -/
def setClocks (s : State) (c p : Nat) : State := { s with cpuCycles := c, pixelClock := p }
/-- The state with new memories. -/
def setMem (s : State) (m : Memories) : State := { s with mem := m }
/-- The state with new VDP registers. -/
def setVideo (s : State) (v : VideoRegs) : State := { s with video := v }
/-- The state with new DMA registers. -/
def setDma (s : State) (d : DmaRegs) : State := { s with dma := d }
/-- The state with new banking and keyboard registers. -/
def setSys (s : State) (y : SysRegs) : State := { s with sys := y }
/-- The state with a new interrupt request level. -/
def setIrq (s : State) (b : Bool) : State := { s with irq := b }
/-- The state with new timing registers. -/
def setTim (s : State) (t : Timing) : State := { s with tim := t }
/-- The state with new pipeline latches. -/
def setPipe (s : State) (p : Pipeline) : State := { s with pipe := p }
/-- The state with a new framebuffer or cursors. -/
def setRaster (s : State) (r : Raster) : State := { s with raster := r }
/-- The state with a new sequence of frame-complete events. -/
def setFramesOut (s : State) (f : List Frame) : State := { s with framesOut := f }
/-- The state with a new sequence of returned bytes. -/
def setReadsOut (s : State) (r : List Byte) : State := { s with readsOut := r }
/-- The state with a new sequence of pending operations. -/
def setTrace (s : State) (t : List Selector) : State := { s with trace := t }

/-- The machine right after reset (R10 third column, R330): every register at the value the spec gives, the engine at the first tick
of line 0, every memory at its launch contents (nothing listed), the framebuffer all `FB_INIT` (R331), no operation pending. -/
def reset : State where
  cpuCycles := 0
  pixelClock := 0
  mem := { ram0 := [], ram1 := [], rom := [], cart := [], vram := [], pal := [], spr := [] }
  video :=
    { vctl := 0, vena := 0, vsta := 0, scrh := 0, scrhf := 0, scrv := 0, scrvf := 0, ntsize := 0, ntbase := 0, pala := 0, spra := 0 }
  dma := { dsrc := 0, ddst := 0, dctl := 0, drun := 0, dfill := 0, dpage := 0 }
  sys := { bank2 := 0, bank3 := 0, kcol := 0 }
  irq := false
  tim :=
    { hcount := 0, htile := 0, hsub := 0, vcount := 0, vtile := 0, vsub := 0, hborder := false, hblank := false, vborder := false,
      vblank := false, hbusy := true, vbusy := true }
  pipe := { name := 0, attrF := 0, attrA := 0, gfx0 := 0, gfx1 := 0, sr := 0, pix := 0 }
  raster := { fb := [], row := Config.fbY0, col := Config.fbX0 }
  framesOut := []
  readsOut := []
  trace := []

end State

end Sys2Proof.Machine
end

