-- ==== Sys2Proof/Machine/Flags.lean ====
section
/-! DEFINITION. The status flag and the interrupt request (30_encoding.md R83, 60_exceptions.md R304 to R307). The hardware takes no
exception (R300, R310): raising the request and acknowledging it is all there is (log 17). -/

namespace Sys2Proof.Machine

/-- Raising: the vertical-sync flag is set, and the request if it is enabled at this instant (R240, R305). -/
def raiseVsync (s : State) : State :=
  let u := s.setVideo { s.video with vsta := s.video.vsta ||| 0x01 }
  if u.video.vena.getLsbD 0 then u.setIrq true else u

/-- Acknowledging: the bits that are 1 in `v` are cleared, and the request follows its flag down (R126, R307). -/
def ackStatus (v : Byte) (s : State) : State :=
  let u := s.setVideo { s.video with vsta := s.video.vsta &&& ~~~v }
  if u.video.vsta.getLsbD 0 then u else u.setIrq false

end Sys2Proof.Machine
end

