-- ==== Sys2Proof/Machine/Operands.lean ====
section
/-! DEFINITION. Operands: the fields of the control registers (30_encoding.md R82 to R91), the operands of a transfer (R96, R182,
R193), the addresses the fetch scheduler forms (R261, R264) and the palette index and colour of the pixel stage (R280, R282). -/

namespace Sys2Proof.Machine

/-- `VCTL.ATTR16` (R82 bit 2). -/
def State.attr16 (s : State) : Bool := s.video.vctl.getLsbD 2

/-- `VCTL.BPP4` (R82 bit 6). -/
def State.bpp4 (s : State) : Bool := s.video.vctl.getLsbD 6

/-- `VENA.VSYNC_IE` (R83 bit 0). -/
def State.vsyncEnabled (s : State) : Bool := s.video.vena.getLsbD 0

/-- The table width in tiles `W = 32 << WSEL` (R84). -/
def State.ntWidth (s : State) : Nat := 32 <<< (s.video.ntsize.extractLsb' 0 2).toNat

/-- The table height in tile rows `H = 32 << HSEL` (R84). -/
def State.ntHeight (s : State) : Nat := 32 <<< (s.video.ntsize.extractLsb' 2 2).toNat

/-- The single VRAM-busy signal (R36, C7). -/
def State.vramBusy (s : State) : Bool := s.tim.hbusy && s.tim.vbusy

/-- The step count of a transfer: a run count of 0 is 256 (R96, R181). -/
def stepCount (run : Byte) : Nat := if run.toNat = 0 then 256 else run.toNat

/-- The increment of both counters (R182): magnitude `2 * W` or 1, negated by the reverse flag, modulo 65536. -/
def State.dmaInc (s : State) (f : DmaFlags) : BitVec 16 :=
  let mag : BitVec 16 := if f.vert then BitVec.ofNat 16 (2 * s.ntWidth) else 1
  if f.rev then -mag else mag

/-- Where a pixel lies in its byte in the direct-pixel mode (R193, columns `sh` and `mask`). -/
structure PixelSlot where
  /-- the byte address, a quotient of the pixel address -/
  byteAddr : BitVec 16
  /-- shift of the pixel in its byte -/
  shift : Nat
  /-- the bits of the byte the pixel occupies -/
  mask : Byte
  /-- the low bits of a source byte that make one pixel -/
  low : Byte
deriving DecidableEq, Repr

/-- The slot of pixel address `d` (R193, R96): 2 pixels a byte at 4 bits per pixel, 4 at 2, the leftmost in the top bits. -/
def pixelSlot (bpp4 : Bool) (d : BitVec 16) : PixelSlot :=
  if bpp4 then
    let sh := (1 - d.toNat % 2) * 4
    { byteAddr := d >>> 1, shift := sh, mask := (0x0F : Byte) <<< sh, low := 0x0F }
  else
    let sh := (3 - d.toNat % 4) * 2
    { byteAddr := d >>> 2, shift := sh, mask := (0x03 : Byte) <<< sh, low := 0x03 }

/-- The merge of one pixel of a source byte into an existing byte (R193). -/
def mergePixel (p : PixelSlot) (old src : Byte) : Byte := (old &&& ~~~p.mask) ||| ((src &&& p.low) <<< p.shift)

/-- Name-table address (R93, R261). -/
def State.ntAddr (s : State) : Nat :=
  ((s.video.ntbase.toNat <<< 6) + 2 * (s.tim.vtile.toNat * s.ntWidth + s.tim.htile.toNat)) % Config.vramSize

/-- The high graphics-address bit: attribute bit 3, or 0 in 16-colour attribute mode (R93, R264). -/
def State.tileHi (s : State) : BitVec 1 := if s.attr16 then 0 else s.pipe.attrF.extractLsb' 3 1

/-- Graphics address `hi : name : vsub : k`, 13 bits (R94, R97, R264). -/
def State.gfxAddr (s : State) (k : BitVec 1) : Nat := (s.tileHi ++ s.pipe.name ++ s.tim.vsub ++ k).toNat

/-- Palette index from the pixel and the active attribute (R280). -/
def State.palIndex (s : State) : BitVec 6 :=
  if s.attr16 then
    if s.pipe.pix.getLsbD 0 then (s.pipe.attrA.extractLsb' 4 4).setWidth 6 else (s.pipe.attrA.extractLsb' 0 4).setWidth 6
  else if s.bpp4 then s.pipe.attrA.extractLsb' 0 2 ++ s.pipe.pix
  else (0 : BitVec 1) ++ s.pipe.attrA.extractLsb' 0 3 ++ s.pipe.pix.extractLsb' 0 2

/-- Colour of a palette byte (R92, R95, R282): each channel the chroma entry of its field plus the luma entry of the intensity. -/
def decodeColour (b : Byte) : Pixel :=
  let y := Config.luma (b.extractLsb' 6 2)
  let r := Config.chroma (b.extractLsb' 4 2) + y
  let g := Config.chroma (b.extractLsb' 2 2) + y
  let bl := Config.chroma (b.extractLsb' 0 2) + y
  (0xFF : Byte) ++ r ++ g ++ bl

/-- Ticks between pixel latches (R278, C2). -/
def State.pixPeriod (s : State) : Nat := if s.bpp4 then Config.pixPeriod4bpp else Config.pixPeriod2bpp

end Sys2Proof.Machine
end

