-- ==== Sys2Proof/Machine/Ops.lean ====
section
/-! DEFINITION. The named operations over memory and registers: cell lists, the memories and their address reductions (20_memory.md R50 to
R54), the banked address space (R55 to R59), the output sequences (00_scope.md R5) and reset as an operation (R330, R331). -/

namespace Sys2Proof.Machine

open Sys2Proof.Config (Region)

/-- The outcome of an operation of this machine. -/
abbrev Result := Host.Outcome State Fault Refusal

/-! ### Cell lists -/

/-- The value listed at key `a`, in a list of rising keys. -/
def cellGet {α : Type} : List (Nat × α) → Nat → Option α
  | [], _ => none
  | (k, v) :: r, a => if a < k then none else if a = k then some v else cellGet r a

/-- List `v` at key `a`. -/
def cellPut {α : Type} : List (Nat × α) → Nat → α → List (Nat × α)
  | [], a, v => [(a, v)]
  | (k, w) :: r, a, v =>
    if a < k then (a, v) :: (k, w) :: r else if a = k then (a, v) :: r else (k, w) :: cellPut r a v

/-- List nothing at key `a`. -/
def cellErase {α : Type} : List (Nat × α) → Nat → List (Nat × α)
  | [], _ => []
  | (k, w) :: r, a => if a < k then (k, w) :: r else if a = k then r else (k, w) :: cellErase r a

/-- Keys strictly rise. -/
abbrev Rising {α : Type} (m : List (Nat × α)) : Prop := m.Pairwise (fun x y => x.1 < y.1)

/-- The canonical form of a memory of `size` bytes: addresses strictly rising and below the size. -/
abbrev Memory.wf (size : Nat) (m : Memory) : Prop := Rising m ∧ ∀ c ∈ m, c.1 < size

/-- The canonical form of a framebuffer: keys strictly rising and inside the array, no entry equal to `FB_INIT`. -/
abbrev Frame.wf (f : Frame) : Prop := Rising f ∧ ∀ c ∈ f, c.1 < Config.fbH * Config.fbW ∧ c.2 ≠ Config.fbInit

/-! ### The memories -/

/-- The memory of a region (R13 to R16). -/
def Memories.get (m : Memories) : Region → Memory
  | .ram0 => m.ram0
  | .ram1 => m.ram1
  | .rom => m.rom
  | .cart => m.cart
  | .vram => m.vram
  | .pal => m.pal
  | .spr => m.spr

/-- The memories with one replaced. -/
def Memories.put (m : Memories) : Region → Memory → Memories
  | .ram0, x => { m with ram0 := x }
  | .ram1, x => { m with ram1 := x }
  | .rom, x => { m with rom := x }
  | .cart, x => { m with cart := x }
  | .vram, x => { m with vram := x }
  | .pal, x => { m with pal := x }
  | .spr, x => { m with spr := x }

/-- Bytes of a region (R13 to R16). -/
def regionSize : Region → Nat
  | .ram0 => Config.windowSize
  | .ram1 => Config.windowSize
  | .rom => Config.romPages * Config.windowSize
  | .cart => Config.cartPages * Config.windowSize
  | .vram => Config.vramSize
  | .pal => Config.palSize
  | .spr => Config.sprSize

/-- What an address that nothing has written reads as: the launch contents of its memory, a free value (R46, R335, U1; log 3, 4). -/
def launchByte : Region → Nat → Byte
  | .rom, a => Config.romImage a
  | .ram0, a => Config.initMem .ram0 a
  | .ram1, a => Config.initMem .ram1 a
  | .cart, a => Config.initMem .cart a
  | .vram, a => Config.initMem .vram a
  | .pal, a => Config.initMem .pal a
  | .spr, a => Config.initMem .spr a

/-- One byte of a region (every read of a memory goes through this). -/
def State.peek (s : State) (r : Region) (a : Nat) : Byte := (cellGet (s.mem.get r) a).getD (launchByte r a)

/-- Write one byte of a region (every write of a memory goes through this). -/
def State.poke (s : State) (r : Region) (a : Nat) (v : Byte) : State :=
  s.setMem (s.mem.put r (cellPut (s.mem.get r) a v))

/-- Every memory and every framebuffer of the state has its canonical form. -/
abbrev State.memWf (s : State) : Prop :=
  (∀ r ∈ [Region.ram0, .ram1, .rom, .cart, .vram, .pal, .spr], Memory.wf (regionSize r) (s.mem.get r)) ∧
    Frame.wf s.raster.fb ∧ ∀ f ∈ s.framesOut, Frame.wf f

/-- `VRAM[a]`, the address reduced to 14 bits (R52). -/
def State.vramRead (s : State) (a : Nat) : Byte := s.peek .vram (a % Config.vramSize)

/-- `VRAM[a] := v` (R52). -/
def State.vramWrite (s : State) (a : Nat) (v : Byte) : State := s.poke .vram (a % Config.vramSize) v

/-- `PAL[i]`, the index wrapping (R53). -/
def State.palRead (s : State) (i : Nat) : Byte := s.peek .pal (i % Config.palSize)

/-- `PAL[i] := v` (R53). -/
def State.palWrite (s : State) (i : Nat) (v : Byte) : State := s.poke .pal (i % Config.palSize) v

/-- `SPR[i]`; an index out of range is a skipped read (R53). -/
def State.sprRead (s : State) (i : Nat) : Byte := if i < Config.sprSize then s.peek .spr i else Config.openBus

/-- `SPR[i] := v`; an index out of range is a skipped write (R53). -/
def State.sprWrite (s : State) (i : Nat) (v : Byte) : State := if i < Config.sprSize then s.poke .spr i v else s

/-- Key of a framebuffer pixel (log 14). -/
def fbKey (row col : Nat) : Nat := row * Config.fbW + col

/-- `FB[row][col]` of a framebuffer (R17). -/
def fbRead (f : Frame) (row col : Nat) : Pixel := (cellGet f (fbKey row col)).getD Config.fbInit

/-- `FB[row][col] := c` (R54). Writing `FB_INIT` lists nothing. -/
def fbWrite (f : Frame) (row col : Nat) (c : Pixel) : Frame :=
  if c = Config.fbInit then cellErase f (fbKey row col) else cellPut f (fbKey row col) c

/-! ### The banked address space -/

/-- What a window is bound to (R56): a region (none is open bus), a page, the write-enable flag. -/
structure Binding where
  region : Option Region
  page : Nat
  writable : Bool
deriving DecidableEq, Repr

/-- Binding of a switchable window by its register value and page (R56, R90). -/
def bindSwitched (v : Byte) (p : Nat) : Binding :=
  if v.toNat = 0 ∧ p < Config.romPages then { region := some .rom, page := p, writable := false }
  else if v.toNat = 1 ∧ p < Config.cartPages then { region := some .cart, page := p, writable := true }
  else { region := none, page := 0, writable := false }

/-- `Bind(w)`, evaluated at every access (R56). -/
def State.bind (s : State) (w : BitVec 2) : Binding :=
  match w.toNat with
  | 0 => { region := some .ram0, page := 0, writable := true }
  | 1 => { region := some .ram1, page := 0, writable := true }
  | 2 => bindSwitched s.sys.bank2 0
  | _ => bindSwitched s.sys.bank3 1

/-- Address in a region of an offset in a window bound to one of its pages (R57). -/
def bankCell (b : Binding) (off : BitVec 14) : Nat := b.page * Config.windowSize + off.toNat

/-- `BankRead(addr)` (R57). -/
def State.bankRead (s : State) (a : Addr) : Byte :=
  let b := s.bind (addrWindow a)
  match b.region with
  | none => Config.openBus
  | some r => s.peek r (bankCell b (addrOffset a))

/-- `BankWrite(addr, v)`; dropped where the window is read-only or open bus (R58). -/
def State.bankWrite (s : State) (a : Addr) (v : Byte) : State :=
  let b := s.bind (addrWindow a)
  match b.region with
  | none => s
  | some r => if b.writable then s.poke r (bankCell b (addrOffset a)) v else s

/-! ### Registers and outputs -/

/-- A 16-bit counter with its low byte replaced (R60, R150, R154). -/
def withLow (c : BitVec 16) (v : Byte) : BitVec 16 := (c.extractLsb' 8 8) ++ v

/-- A 16-bit counter with its high byte replaced (R60, R152, R156). -/
def withHigh (c : BitVec 16) (v : Byte) : BitVec 16 := v ++ (c.extractLsb' 0 8)

/-- The low byte of a counter (R149, R153). -/
def lowByte (c : BitVec 16) : Byte := c.extractLsb' 0 8

/-- The high byte of a counter (R151, R155). -/
def highByte (c : BitVec 16) : Byte := c.extractLsb' 8 8

/-- `Cycles(n)` (R4). -/
def State.addCycles (s : State) (n : Nat) : State := s.setClocks (s.cpuCycles + n) s.pixelClock

/-- A bus read returns a byte to the CPU collaborator (R5 (a), log 7). -/
def State.returned (s : State) (v : Byte) : State := s.setReadsOut (s.readsOut ++ [v])

/-- `emit FrameComplete(FB)` (R286). -/
def State.emitFrame (s : State) : State := s.setFramesOut (s.framesOut ++ [s.raster.fb])

/-- Reset as an operation (R330): every register and timing element at its reset value, the outputs empty, no memory and no framebuffer
pixel written (R331). The pending events are the CPU collaborator's and stay. -/
def applyReset (s : State) : State :=
  { State.reset with
    mem := s.mem
    raster := { s.raster with row := Config.fbY0, col := Config.fbX0 }
    trace := s.trace }

end Sys2Proof.Machine
end

