-- ==== Sys2Proof/Machine/Fetch.lean ====
section
/-! DEFINITION. Tick step 1: the tile, attribute and graphics fetch scheduler (44_fetch_scheduler.md). -/

namespace Sys2Proof.Machine

/-- Name fetch, phase 0 (R262), only while the scheduler owns the VRAM port (R260, R267). -/
def fetchName (s : State) : State :=
  if s.vramBusy then s.setPipe { s.pipe with name := s.vramRead s.ntAddr } else s

/-- Attribute fetch, phase 2 (R263, R267). -/
def fetchAttr (s : State) : State :=
  if s.vramBusy then s.setPipe { s.pipe with attrF := s.vramRead (s.ntAddr + 1) } else s

/-- Graphics fetch, left half, phase 4 (R265, R267). -/
def fetchGfx0 (s : State) : State :=
  if s.vramBusy then s.setPipe { s.pipe with gfx0 := s.vramRead (s.gfxAddr 0) } else s

/-- Graphics fetch, right half, phase 6 (R266, R267). -/
def fetchGfx1 (s : State) : State :=
  if s.vramBusy then s.setPipe { s.pipe with gfx1 := s.vramRead (s.gfxAddr 1) } else s

/-- The odd phases: no access (R260). -/
def fetchIdle (s : State) : State := s

/-- `Fetch(s)` (R260). -/
def fetch (p : BitVec 3) (s : State) : State :=
  match p.toNat with
  | 0 => fetchName s
  | 2 => fetchAttr s
  | 4 => fetchGfx0 s
  | 6 => fetchGfx1 s
  | _ => fetchIdle s

/-- FETCH NAME (R262). -/
def execFetchName (s : State) : Result := .next (fetchName s)

/-- FETCH ATTR (R263). -/
def execFetchAttr (s : State) : Result := .next (fetchAttr s)

/-- FETCH GFX0 (R265). -/
def execFetchGfx0 (s : State) : Result := .next (fetchGfx0 s)

/-- FETCH GFX1 (R266). -/
def execFetchGfx1 (s : State) : Result := .next (fetchGfx1 s)

/-- FETCH IDLE (R260). -/
def execFetchIdle (_p : BitVec 3) (s : State) : Result := .next (fetchIdle s)

end Sys2Proof.Machine
end

