-- ==== Sys2Proof/Machine/Pixel.lean ====
section
/-! DEFINITION. Tick steps 2 and 3: the shift register, the pixel latch and the framebuffer write (45_pixel_pipeline.md). -/

namespace Sys2Proof.Machine

/-- The double shift of every tick (R275). -/
def shiftPixels (s : State) : State := s.setPipe { s.pipe with sr := s.pipe.sr <<< 2 }

/-- Phase 4: `sr[7:0] := gfx0` (R276). -/
def loadShiftLo (s : State) : State :=
  s.setPipe { s.pipe with sr := (s.pipe.sr.extractLsb' 8 8) ++ s.pipe.gfx0 }

/-- Phase 0: `sr[7:0] := gfx1` and `attr_a := attr_f` (R277). -/
def loadShiftHi (s : State) : State :=
  s.setPipe { s.pipe with sr := (s.pipe.sr.extractLsb' 8 8) ++ s.pipe.gfx1, attrA := s.pipe.attrF }

/-- `ShiftLoad(s)`: the shift, then the load of the phase (R275 to R277). -/
def shiftLoad (p : BitVec 3) (s : State) : State :=
  match p.toNat with
  | 4 => loadShiftLo (shiftPixels s)
  | 0 => loadShiftHi (shiftPixels s)
  | _ => shiftPixels s

/-- The top bits of the shift register as a pixel value (R279). -/
def State.topPixel (s : State) : BitVec 4 :=
  if s.bpp4 then s.pipe.sr.extractLsb' 12 4 else (0 : BitVec 2) ++ s.pipe.sr.extractLsb' 14 2

/-- The pixel latch is loaded on the phases divisible by the period (R278, R279). -/
def latchPixel (p : BitVec 3) (s : State) : State :=
  if p.toNat % s.pixPeriod = 0 then s.setPipe { s.pipe with pix := s.topPixel } else s

/-- The colour of the latched pixel (R280, R281, R282). -/
def State.pixelColour (s : State) : Pixel := decodeColour (s.palRead s.palIndex.toNat)

/-- The framebuffer write of a visible tick, guarded by the array bounds (R54, R283). -/
def drawPixel (s : State) : State :=
  if s.tim.hborder = false ∧ s.tim.vborder = false then
    s.setRaster
      { s.raster with
        fb := if s.raster.row < Config.fbH ∧ s.raster.col < Config.fbW then
            fbWrite s.raster.fb s.raster.row s.raster.col s.pixelColour
          else s.raster.fb
        col := min (s.raster.col + 1) Config.fbW }
  else s

/-- `PixelOut(s)` (R283). -/
def pixelOut (p : BitVec 3) (s : State) : State := drawPixel (latchPixel p s)

/-- LOAD SHIFT LO (R276). -/
def execLoadShiftLo (s : State) : Result := .next (loadShiftLo s)

/-- LOAD SHIFT HI (R277). -/
def execLoadShiftHi (s : State) : Result := .next (loadShiftHi s)

end Sys2Proof.Machine
end

