-- ==== Sys2Proof/Machine/Timing.lean ====
section
/-! DEFINITION. The VDP timing engine (43_vdp_timing.md): the horizontal and vertical thresholds, one tick, `Advance`, and the cycles that
the core itself adds (R184, R127, R185). -/

namespace Sys2Proof.Machine

/-- An action made when a counter, after its increment, equals a threshold (R223, R235). -/
def onCount (c threshold : Nat) (act : State → State) (s : State) : State := if c = threshold then act s else s

/-! ### Horizontal thresholds -/

/-- At `H_VIS_END` (R227). -/
def atHVisEnd (s : State) : State := s.setTim { s.tim with hborder := true, hblank := true, hbusy := false }

/-- At `H_SYNC_START`: no state (R228). -/
def atHSyncStart (s : State) : State := s

/-- At `H_SYNC_END`: no state (R228). -/
def atHSyncEnd (s : State) : State := s

/-- At `H_EARLY`, first: the vertical sub-tile counter, and on its wrap the vertical tile index (R229). -/
def earlyRow (s : State) : State :=
  let v := s.tim.vsub + 1
  s.setTim
    { s.tim with
      vsub := v
      vtile := if v = 0 then BitVec.ofNat 8 ((s.tim.vtile.toNat + 1) % s.ntHeight) else s.tim.vtile }

/-- At `H_EARLY`, second: the horizontal tile index from the scroll register (R230). -/
def earlyColumn (s : State) : State := s.setTim { s.tim with htile := BitVec.ofNat 8 (s.video.scrh.toNat % s.ntWidth) }

/-- At `H_EARLY`, third: the column cursor, and the early window begins (R231). -/
def earlyCursor (s : State) : State :=
  (s.setRaster { s.raster with col := Config.fbX0 }).setTim { s.tim with hbusy := true }

/-- At `H_EARLY`, fourth: the pipeline latches (R232). -/
def earlyLatches (s : State) : State :=
  s.setPipe { name := 0, attrF := 0, attrA := 0, gfx0 := 0, gfx1 := 0, sr := 0, pix := 0 }

/-- The four actions of `H_EARLY`, in the spec's order (R229 to R232). -/
def atHEarly (s : State) : State := earlyLatches (earlyCursor (earlyColumn (earlyRow s)))

/-- The horizontal thresholds, compared with the counter after its increment (R223, R227 to R232). -/
def hThresholds (s : State) : State :=
  let h := s.tim.hcount
  onCount h Config.hEarly atHEarly
    (onCount h Config.hSyncEnd atHSyncEnd (onCount h Config.hSyncStart atHSyncStart (onCount h Config.hVisEnd atHVisEnd s)))

/-- The counters of tick step 4 (R224, R225, R226). -/
def hCount (s : State) : State :=
  let h := s.tim.hsub + 1
  s.setTim
    { s.tim with
      hsub := h
      htile := if h = 0 then BitVec.ofNat 8 ((s.tim.htile.toNat + 1) % s.ntWidth) else s.tim.htile
      hcount := s.tim.hcount + 1 }

/-- Tick step 4 (R222, R224 to R232). -/
def hAdvance (s : State) : State := hThresholds (hCount s)

/-! ### Vertical thresholds -/

/-- At `V_VIS_END`: the latches, then the frame-complete event (R238, R286). -/
def atVVisEnd (s : State) : State :=
  (s.setTim { s.tim with vborder := true, vblank := true, vbusy := false }).emitFrame

/-- At `V_SYNC_START`: the status flag and the interrupt request (R240). -/
def atVSyncStart (s : State) : State := raiseVsync s

/-- At `V_SYNC_END`: no state (R241). -/
def atVSyncEnd (s : State) : State := s

/-- At `V_TOTAL`: the frame wrap (R242). -/
def atVTotal (s : State) : State :=
  (s.setRaster { s.raster with row := Config.fbY0, col := Config.fbX0 }).setTim
    { s.tim with
      vcount := 0
      vborder := false
      vblank := false
      vbusy := true
      vtile := BitVec.ofNat 8 (s.video.scrv.toNat % s.ntHeight)
      vsub := s.video.scrvf }

/-- The vertical thresholds, compared with the counter after its increment, in the spec's order (R234, R235, R309). -/
def vThresholds (s : State) : State :=
  let v := s.tim.vcount
  onCount v Config.vTotal atVTotal
    (onCount v Config.vSyncEnd atVSyncEnd (onCount v Config.vSyncStart atVSyncStart (onCount v Config.vVisEnd atVVisEnd s)))

/-- The counters at the line end (R234). -/
def lineCount (s : State) : State :=
  (s.setRaster { s.raster with row := min (s.raster.row + 1) (Config.fbH - 1) }).setTim
    { s.tim with hcount := 0, hsub := 0, hborder := false, hblank := false, vcount := s.tim.vcount + 1 }

/-- At `H_TOTAL`: the line end, then the vertical thresholds (R234, R235). -/
def lineEnd (s : State) : State := vThresholds (lineCount s)

/-- Tick step 5 (R222): only when the horizontal counter has reached `H_TOTAL`. -/
def lineEndIfDue (s : State) : State := if s.tim.hcount = Config.hTotal then lineEnd s else s

/-! ### Ticks and cycles -/

/-- `Tick()`: the five steps in order, the first three at the phase of the start of the tick (R222). -/
def tick (s : State) : State :=
  let p := s.tim.hsub
  lineEndIfDue (hAdvance (pixelOut p (shiftLoad p (fetch p s))))

/-- A tick, counted (R220). -/
def countedTick (s : State) : State :=
  let u := tick s
  u.setClocks u.cpuCycles (u.pixelClock + 1)

/-- `n` counted ticks. -/
def ticks : Nat → State → State
  | 0, s => s
  | n + 1, s => ticks n (countedTick s)

/-- The tick count that a CPU cycle count calls for (R220, D1). -/
def tickGoal (c : Nat) : Nat := c * Config.clkNum / Config.clkDen

/-- `Advance(cpu_cycles)` (R220): the ticks that are due; none if the engine is caught up (R221). -/
def advance (s : State) : State := ticks (tickGoal s.cpuCycles - s.pixelClock) s

/-- `Cycle()` (R184): one CPU cycle charged by the core, then the ticks that fall in it. -/
def cycle (s : State) : State := advance (s.addCycles 1)

/-- Cycles of a frame (R356): the bound within which a stall ends (R312, R313; log 6). -/
def stallBound : Nat := Config.hTotal * Config.vTotal * Config.clkDen / Config.clkNum

/-- A stall: whole cycles while the condition holds (R127, R185); none where it has not ended within the bound (R314; log 6). -/
def stallWhile (busy : State → Bool) : Nat → State → Option State
  | 0, s => if busy s then none else some s
  | n + 1, s => if busy s then stallWhile busy n (cycle s) else some s

/-- The outcome of an operation that may stall (R314; log 6). -/
def ofStall : Option State → Result
  | some s => .next s
  | none => .fault .stalled

/-! ### The operations -/

/-- HT H_VIS_END (R227). -/
def execHtHVisEnd (s : State) : Result := .next (atHVisEnd s)

/-- HT H_SYNC_START (R228). -/
def execHtHSyncStart (s : State) : Result := .next (atHSyncStart s)

/-- HT H_SYNC_END (R228). -/
def execHtHSyncEnd (s : State) : Result := .next (atHSyncEnd s)

/-- HT H_EARLY.1 (R229). -/
def execHtHEarly1 (s : State) : Result := .next (earlyRow s)

/-- HT H_EARLY.2 (R230). -/
def execHtHEarly2 (s : State) : Result := .next (earlyColumn s)

/-- HT H_EARLY.3 (R231). -/
def execHtHEarly3 (s : State) : Result := .next (earlyCursor s)

/-- HT H_EARLY.4 (R232). -/
def execHtHEarly4 (s : State) : Result := .next (earlyLatches s)

/-- HT H_TOTAL (R234). -/
def execHtHTotal (s : State) : Result := .next (lineEnd s)

/-- VT V_VIS_END (R238). -/
def execVtVVisEnd (s : State) : Result := .next (atVVisEnd s)

/-- VT V_SYNC_START (R240). -/
def execVtVSyncStart (s : State) : Result := .next (atVSyncStart s)

/-- VT V_SYNC_END (R241). -/
def execVtVSyncEnd (s : State) : Result := .next (atVSyncEnd s)

/-- VT V_TOTAL (R242). -/
def execVtVTotal (s : State) : Result := .next (atVTotal s)

/-- CYC n (R4): the cycle counter only; the engine is not advanced. -/
def execCycN (n : Nat) (s : State) : Result := .next (s.addCycles n)

/-- SYNC (R4, R220): `CatchUp`. -/
def execSync (s : State) : Result := .next (advance s)

end Sys2Proof.Machine
end

