-- ==== Sys2Proof/Machine/Dma.lean ====
section
/-! DEFINITION. The DMA engine and the VRAM arbiter (42_dma.md): one step in each of the eight modes, and the transfer. -/

namespace Sys2Proof.Machine

open Sys2Proof.Config (Interlock)

/-- `DmaRead(space, a)` (R183): VRAM, or the banked space without the I/O window (R59). -/
def State.dmaRead (s : State) (vram : Bool) (a : Addr) : Byte := if vram then s.vramRead a.toNat else s.bankRead a

/-- `DmaWrite(space, a, b)` (R183). -/
def State.dmaWrite (s : State) (vram : Bool) (a : Addr) (b : Byte) : State :=
  if vram then s.vramWrite a.toNat b else s.bankWrite a b

/-- Load the data latch (R25). -/
def State.latchFill (s : State) (b : Byte) : State := s.setDma { s.dma with dfill := b }

/-- Load the secondary latch (R26). -/
def State.latchPage (s : State) (b : Byte) : State := s.setDma { s.dma with dpage := b }

/-- What a mode does, column by column of the table of R187. -/
structure StepPlan where
  /-- the step reads a source -/
  readsSrc : Bool
  /-- the step is held while the fetch scheduler owns the VRAM port -/
  touchesVram : Bool
  /-- the destination counter moves by 4 (R196) instead of by the increment -/
  stride4 : Bool
deriving DecidableEq, Repr

/-- The table of R187. -/
def stepPlan (m : DmaMode) (f : DmaFlags) : StepPlan :=
  match m with
  | .copy => { readsSrc := true, touchesVram := f.srcv || f.dstv, stride4 := false }
  | .fill => { readsSrc := false, touchesVram := f.dstv, stride4 := false }
  | .masked => { readsSrc := true, touchesVram := f.srcv || f.dstv, stride4 := false }
  | .apa => { readsSrc := true, touchesVram := f.srcv || f.dstv, stride4 := false }
  | .pal => { readsSrc := true, touchesVram := false, stride4 := false }
  | .spr => { readsSrc := true, touchesVram := false, stride4 := false }
  | .sprclr => { readsSrc := false, touchesVram := false, stride4 := true }
  | .altfill => { readsSrc := false, touchesVram := f.dstv, stride4 := false }

/-! ### Read and write phases (R190 to R197) -/

/-- The read phase of the modes that read the space `SRCV` selects (R190, R192, R193). -/
def readSource (f : DmaFlags) (s : State) : State := s.latchFill (s.dmaRead f.srcv s.dma.dsrc)

/-- The read phase of the palette and sprite modes: always system memory (R194, R195). -/
def readSystem (s : State) : State := s.latchFill (s.bankRead s.dma.dsrc)

/-- An idle read phase (R191, R196, R197). -/
def readIdle (s : State) : State := s

/-- The write phase of `COPY` and of `FILL`: the data latch (R190, R191). -/
def writeFill (f : DmaFlags) (s : State) : State := s.dmaWrite f.dstv s.dma.ddst s.dma.dfill

/-- The write phase of `MASKED`: only a byte that is not zero (R192). -/
def writeMasked (f : DmaFlags) (s : State) : State := if s.dma.dfill = 0 then s else writeFill f s

/-- The write phase of `APA`: the existing byte into the secondary latch, then the merged byte (R193). -/
def writeApa (f : DmaFlags) (s : State) : State :=
  let p := pixelSlot s.bpp4 s.dma.ddst
  let u := s.latchPage (s.dmaRead f.dstv p.byteAddr)
  u.dmaWrite f.dstv p.byteAddr (mergePixel p u.dma.dpage u.dma.dfill)

/-- The write phase of `PAL` (R194). -/
def writePal (s : State) : State := s.palWrite s.dma.ddst.toNat s.dma.dfill

/-- The write phase of `SPR` (R195). -/
def writeSpr (s : State) : State := s.sprWrite s.dma.ddst.toNat s.dma.dfill

/-- The write phase of `SPRCLR` (R196). -/
def writeSprclr (s : State) : State := s.sprWrite s.dma.ddst.toNat Config.spriteClearValue

/-- The write phase of `ALTFILL`: the latches alternate with the step index (R197). -/
def writeAltfill (f : DmaFlags) (i : Nat) (s : State) : State :=
  s.dmaWrite f.dstv s.dma.ddst (if i % 2 = 0 then s.dma.dfill else s.dma.dpage)

/-! ### A step (R186) -/

/-- The arbiter (R185): a step that touches VRAM waits in whole cycles while the port is busy; with the `perBlock` policy only step 0. -/
def arbitrate (pol : Interlock) (touches : Bool) (i : Nat) (s : State) : Option State :=
  if touches = true ∧ (pol = .perStep ∨ i = 0) then stallWhile State.vramBusy stallBound s else some s

/-- The counters after the two cycles (R182, R186, R196). -/
def stepCounters (p : StepPlan) (f : DmaFlags) (s : State) : State :=
  s.setDma
    { s.dma with
      dsrc := if p.readsSrc then s.dma.dsrc + s.dmaInc f else s.dma.dsrc
      ddst := s.dma.ddst + (if p.stride4 then 4 else s.dmaInc f)
      drun := s.dma.drun - 1 }

/-- A step once granted (R186): the read phase and its cycle, the write phase and its cycle, the counters. -/
def grantedStep (p : StepPlan) (f : DmaFlags) (rd wr : State → State) (s : State) : State :=
  stepCounters p f (cycle (wr (cycle (rd s))))

/-- `DmaStep(i)` (R186). -/
def dmaStepWith (pol : Interlock) (p : StepPlan) (f : DmaFlags) (i : Nat) (rd wr : State → State) (s : State) : Option State :=
  (arbitrate pol p.touchesVram i s).map (grantedStep p f rd wr)

/-- A step of mode 0 (R190). -/
def stepCopy (pol : Interlock) (f : DmaFlags) (i : Nat) (s : State) : Option State :=
  dmaStepWith pol (stepPlan .copy f) f i (readSource f) (writeFill f) s

/-- A step of mode 1 (R191). -/
def stepFill (pol : Interlock) (f : DmaFlags) (i : Nat) (s : State) : Option State :=
  dmaStepWith pol (stepPlan .fill f) f i readIdle (writeFill f) s

/-- A step of mode 2 (R192). -/
def stepMasked (pol : Interlock) (f : DmaFlags) (i : Nat) (s : State) : Option State :=
  dmaStepWith pol (stepPlan .masked f) f i (readSource f) (writeMasked f) s

/-- A step of mode 3 (R193). -/
def stepApa (pol : Interlock) (f : DmaFlags) (i : Nat) (s : State) : Option State :=
  dmaStepWith pol (stepPlan .apa f) f i (readSource f) (writeApa f) s

/-- A step of mode 4 (R194). -/
def stepPal (pol : Interlock) (f : DmaFlags) (i : Nat) (s : State) : Option State :=
  dmaStepWith pol (stepPlan .pal f) f i readSystem writePal s

/-- A step of mode 5 (R195). -/
def stepSpr (pol : Interlock) (f : DmaFlags) (i : Nat) (s : State) : Option State :=
  dmaStepWith pol (stepPlan .spr f) f i readSystem writeSpr s

/-- A step of mode 6 (R196). -/
def stepSprclr (pol : Interlock) (f : DmaFlags) (i : Nat) (s : State) : Option State :=
  dmaStepWith pol (stepPlan .sprclr f) f i readIdle writeSprclr s

/-- A step of mode 7 (R197). -/
def stepAltfill (pol : Interlock) (f : DmaFlags) (i : Nat) (s : State) : Option State :=
  dmaStepWith pol (stepPlan .altfill f) f i readIdle (writeAltfill f i) s

/-- A step of the mode that `reg[DCTL]` selects now (R181, R186). -/
def dmaStep (pol : Interlock) (i : Nat) (s : State) : Option State :=
  let f := dmaFlagsOf s.dma.dctl
  match dmaModeOf s.dma.dctl with
  | .copy => stepCopy pol f i s
  | .fill => stepFill pol f i s
  | .masked => stepMasked pol f i s
  | .apa => stepApa pol f i s
  | .pal => stepPal pol f i s
  | .spr => stepSpr pol f i s
  | .sprclr => stepSprclr pol f i s
  | .altfill => stepAltfill pol f i s

/-! ### A transfer (R180, R181) -/

/-- `n` steps, the first of index `i` (R181). -/
def dmaLoop (pol : Interlock) : Nat → Nat → State → Option State
  | 0, _, s => some s
  | n + 1, i, s => (dmaStep pol i s).bind (dmaLoop pol n (i + 1))

/-- `DmaRun()` (R181). -/
def dmaRun (pol : Interlock) (s : State) : Option State := dmaLoop pol (stepCount s.dma.drun) 0 s

/-! ### The operations -/

/-- DMA COPY: one step (R190). -/
def execDmaCopy (f : DmaFlags) (i : Nat) (s : State) : Result := ofStall (stepCopy Config.dmaInterlock f i s)

/-- DMA FILL: one step (R191). -/
def execDmaFill (f : DmaFlags) (i : Nat) (s : State) : Result := ofStall (stepFill Config.dmaInterlock f i s)

/-- DMA MASKED: one step (R192). -/
def execDmaMasked (f : DmaFlags) (i : Nat) (s : State) : Result := ofStall (stepMasked Config.dmaInterlock f i s)

/-- DMA APA: one step (R193). -/
def execDmaApa (f : DmaFlags) (i : Nat) (s : State) : Result := ofStall (stepApa Config.dmaInterlock f i s)

/-- DMA PAL: one step (R194). -/
def execDmaPal (f : DmaFlags) (i : Nat) (s : State) : Result := ofStall (stepPal Config.dmaInterlock f i s)

/-- DMA SPR: one step (R195). -/
def execDmaSpr (f : DmaFlags) (i : Nat) (s : State) : Result := ofStall (stepSpr Config.dmaInterlock f i s)

/-- DMA SPRCLR: one step (R196). -/
def execDmaSprclr (f : DmaFlags) (i : Nat) (s : State) : Result := ofStall (stepSprclr Config.dmaInterlock f i s)

/-- DMA ALTFILL: one step (R197). -/
def execDmaAltfill (f : DmaFlags) (i : Nat) (s : State) : Result := ofStall (stepAltfill Config.dmaInterlock f i s)

end Sys2Proof.Machine
end

