-- ==== Sys2Proof/Machine/Bus.lean ====
section
/-! DEFINITION. The bus router (40_bus_router.md): the shape of every I/O access (R110 to R112), and the accesses of the bank windows. -/

namespace Sys2Proof.Machine

/-! ### I/O accesses -/

/-- A read inside the I/O window (R110, R112): the engine is advanced, the register's value is returned, then its read side effect. -/
def ioRead (value : State → Byte) (effect : State → State) (s : State) : Result :=
  let u := advance s
  .next ((effect u).returned (value u))

/-- A write inside the I/O window (R111, R112): the engine is advanced, the register is written, the engine is advanced again. -/
def ioWrite (effect : State → State) (s : State) : Result := .next (advance (effect (advance s)))

/-- A write inside the I/O window that may stall the bus (R111, R127, R160). -/
def ioWriteStall (effect : State → Option State) (s : State) : Result := ofStall ((effect (advance s)).map advance)

/-! ### Bank windows -/

/-- The CPU address of an offset in a window (R55). -/
def windowAddr (w : BitVec 2) (off : BitVec 14) : Addr := w ++ off

/-- A read outside the I/O window (R110, R113): no other state change, the engine is not advanced. -/
def bankAccessRead (w : BitVec 2) (off : BitVec 14) (s : State) : Result := .next (s.returned (s.bankRead (windowAddr w off)))

/-- A write outside the I/O window (R111, R113). -/
def bankAccessWrite (w : BitVec 2) (off : BitVec 14) (v : Byte) (s : State) : Result := .next (s.bankWrite (windowAddr w off) v)

/-- RD MEM0 (R110, R57). -/
def execRdMem0 (off : BitVec 14) (s : State) : Result := bankAccessRead 0 off s

/-- WR MEM0 (R111, R58). -/
def execWrMem0 (off : BitVec 14) (v : Byte) (s : State) : Result := bankAccessWrite 0 off v s

/-- RD MEM1 (R110, R57). -/
def execRdMem1 (off : BitVec 14) (s : State) : Result := bankAccessRead 1 off s

/-- WR MEM1 (R111, R58). -/
def execWrMem1 (off : BitVec 14) (v : Byte) (s : State) : Result := bankAccessWrite 1 off v s

/-- RD MEM2 (R110, R57). -/
def execRdMem2 (off : BitVec 14) (s : State) : Result := bankAccessRead 2 off s

/-- WR MEM2 (R111, R58). -/
def execWrMem2 (off : BitVec 14) (v : Byte) (s : State) : Result := bankAccessWrite 2 off v s

/-- RD MEM3 (R110, R57). -/
def execRdMem3 (off : BitVec 14) (s : State) : Result := bankAccessRead 3 off s

/-- WR MEM3 (R111, R58). -/
def execWrMem3 (off : BitVec 14) (v : Byte) (s : State) : Result := bankAccessWrite 3 off v s

end Sys2Proof.Machine
end

