-- ==== Sys2Proof/Machine/IoDma.lean ====
section
/-! DEFINITION. The DMA registers (41_io_registers.md section 5). -/

namespace Sys2Proof.Machine

/-- Read `DSRCL` (R149). -/
def execRdDsrcl (s : State) : Result := ioRead (fun u => lowByte u.dma.dsrc) id s

/-- Write `DSRCL` (R150). -/
def execWrDsrcl (v : Byte) (s : State) : Result := ioWrite (fun u => u.setDma { u.dma with dsrc := withLow u.dma.dsrc v }) s

/-- Read `DSRCH` (R151). -/
def execRdDsrch (s : State) : Result := ioRead (fun u => highByte u.dma.dsrc) id s

/-- Write `DSRCH` (R152). -/
def execWrDsrch (v : Byte) (s : State) : Result := ioWrite (fun u => u.setDma { u.dma with dsrc := withHigh u.dma.dsrc v }) s

/-- Read `DDSTL` (R153). -/
def execRdDdstl (s : State) : Result := ioRead (fun u => lowByte u.dma.ddst) id s

/-- Write `DDSTL` (R154). -/
def execWrDdstl (v : Byte) (s : State) : Result := ioWrite (fun u => u.setDma { u.dma with ddst := withLow u.dma.ddst v }) s

/-- Read `DDSTH` (R155). -/
def execRdDdsth (s : State) : Result := ioRead (fun u => highByte u.dma.ddst) id s

/-- Write `DDSTH` (R156). -/
def execWrDdsth (v : Byte) (s : State) : Result := ioWrite (fun u => u.setDma { u.dma with ddst := withHigh u.dma.ddst v }) s

/-- Read `DCTL` (R157). -/
def execRdDctl (s : State) : Result := ioRead (fun u => u.dma.dctl) id s

/-- Write `DCTL` (R158): starts nothing. -/
def execWrDctl (v : Byte) (s : State) : Result := ioWrite (fun u => u.setDma { u.dma with dctl := v }) s

/-- Read `DRUN` (R159). -/
def execRdDrun (s : State) : Result := ioRead (fun u => u.dma.drun) id s

/-- Write `DRUN` (R160): runs the whole transfer. -/
def execWrDrun (v : Byte) (s : State) : Result := ioWriteStall (fun u => dmaRun Config.dmaInterlock (u.setDma { u.dma with drun := v })) s

/-- Read `DFILL` (R161). -/
def execRdDfill (s : State) : Result := ioRead (fun u => u.dma.dfill) id s

/-- Write `DFILL` (R162). -/
def execWrDfill (v : Byte) (s : State) : Result := ioWrite (fun u => u.setDma { u.dma with dfill := v }) s

/-- Read `DPAGE` (R163). -/
def execRdDpage (s : State) : Result := ioRead (fun u => u.dma.dpage) id s

/-- Write `DPAGE` (R164). -/
def execWrDpage (v : Byte) (s : State) : Result := ioWrite (fun u => u.setDma { u.dma with dpage := v }) s

end Sys2Proof.Machine
end

