-- ==== Sys2Proof/Machine/IoPorts.lean ====
section
/-! DEFINITION. The palette and sprite memory ports (41_io_registers.md section 4). -/

namespace Sys2Proof.Machine

/-- The palette address after a data-port access (R143, R144). -/
def stepPala (s : State) : State := s.setVideo { s.video with pala := BitVec.ofNat 6 ((s.video.pala.toNat + 1) % Config.palSize) }

/-- The sprite address after a data-port access, in range or not (R147, R148). -/
def stepSpra (s : State) : State := s.setVideo { s.video with spra := BitVec.ofNat 8 ((s.video.spra.toNat + 1) % Config.sprSize) }

/-- Read `PALA` (R141). -/
def execRdPala (s : State) : Result := ioRead (fun u => u.video.pala.setWidth 8) id s

/-- Write `PALA` (R142). -/
def execWrPala (v : Byte) (s : State) : Result := ioWrite (fun u => u.setVideo { u.video with pala := BitVec.ofNat 6 (v.toNat % Config.palSize) }) s

/-- Read `PALD` (R143). -/
def execRdPald (s : State) : Result := ioRead (fun u => u.palRead u.video.pala.toNat) stepPala s

/-- Write `PALD` (R144). -/
def execWrPald (v : Byte) (s : State) : Result := ioWrite (fun u => stepPala (u.palWrite u.video.pala.toNat v)) s

/-- Read `SPRA` (R145). -/
def execRdSpra (s : State) : Result := ioRead (fun u => u.video.spra) id s

/-- Write `SPRA` (R146): without reduction. -/
def execWrSpra (v : Byte) (s : State) : Result := ioWrite (fun u => u.setVideo { u.video with spra := v }) s

/-- Read `SPRD` (R147). -/
def execRdSprd (s : State) : Result := ioRead (fun u => u.sprRead u.video.spra.toNat) stepSpra s

/-- Write `SPRD` (R148). -/
def execWrSprd (v : Byte) (s : State) : Result := ioWrite (fun u => stepSpra (u.sprWrite u.video.spra.toNat v)) s

end Sys2Proof.Machine
end

