-- ==== Sys2Proof/Machine/IoSystem.lean ====
section
/-! DEFINITION. Banking, the keyboard, the audio stubs and the unmapped offsets (41_io_registers.md sections 6 to 8). -/

namespace Sys2Proof.Machine

/-- Read `BANK2` (R165). -/
def execRdBank2 (s : State) : Result := ioRead (fun u => u.sys.bank2) id s

/-- Write `BANK2` (R166): rebinds window 2. -/
def execWrBank2 (v : Byte) (s : State) : Result := ioWrite (fun u => u.setSys { u.sys with bank2 := v }) s

/-- Read `BANK3` (R167). -/
def execRdBank3 (s : State) : Result := ioRead (fun u => u.sys.bank3) id s

/-- Write `BANK3` (R168): rebinds window 3. -/
def execWrBank3 (v : Byte) (s : State) : Result := ioWrite (fun u => u.setSys { u.sys with bank3 := v }) s

/-- Read `KCOL` (R169). -/
def execRdKcol (s : State) : Result := ioRead (fun u => u.sys.kcol.setWidth 8) id s

/-- Write `KCOL` (R170). -/
def execWrKcol (v : Byte) (s : State) : Result := ioWrite (fun u => u.setSys { u.sys with kcol := v.setWidth 4 }) s

/-- Read `KDATA` (R171): the keyboard provider, sampled now (log 5). -/
def execRdKdata (s : State) : Result := ioRead (fun u => Config.keyMatrix u.readsOut.length u.sys.kcol) id s

/-- Write `KDATA` (R172): no effect. -/
def execWrKdata (_v : Byte) (s : State) : Result := ioWrite id s

/-- Read an audio stub, $E0..$EF (R173). -/
def execRdAudio (_n : BitVec 4) (s : State) : Result := ioRead (fun _ => Config.openBus) id s

/-- Write an audio stub, $E0..$EF (R174): discarded. -/
def execWrAudio (_n : BitVec 4) (_v : Byte) (s : State) : Result := ioWrite id s

/-- Read an unmapped offset, $CE, $CF (R175). -/
def execRdUnmappedCE (_n : BitVec 1) (s : State) : Result := ioRead (fun _ => Config.openBus) id s

/-- Write an unmapped offset, $CE, $CF (R176): discarded. -/
def execWrUnmappedCE (_n : BitVec 1) (_v : Byte) (s : State) : Result := ioWrite id s

/-- Read an unmapped offset, $D6, $D7 (R175). -/
def execRdUnmappedD6 (_n : BitVec 1) (s : State) : Result := ioRead (fun _ => Config.openBus) id s

/-- Write an unmapped offset, $D6, $D7 (R176): discarded. -/
def execWrUnmappedD6 (_n : BitVec 1) (_v : Byte) (s : State) : Result := ioWrite id s

/-- Read an unmapped offset, $DE, $DF (R175). -/
def execRdUnmappedDE (_n : BitVec 1) (s : State) : Result := ioRead (fun _ => Config.openBus) id s

/-- Write an unmapped offset, $DE, $DF (R176): discarded. -/
def execWrUnmappedDE (_n : BitVec 1) (_v : Byte) (s : State) : Result := ioWrite id s

/-- Read an unmapped offset, $F0..$FF (R175). -/
def execRdUnmappedF0 (_n : BitVec 4) (s : State) : Result := ioRead (fun _ => Config.openBus) id s

/-- Write an unmapped offset, $F0..$FF (R176): discarded. -/
def execWrUnmappedF0 (_n : BitVec 4) (_v : Byte) (s : State) : Result := ioWrite id s

end Sys2Proof.Machine
end

