-- ==== Sys2Proof/Machine/IoVideo.lean ====
section
/-! DEFINITION. The VDP control, enable, status, wait, scroll and name-table registers (41_io_registers.md sections 2 and 3). -/

namespace Sys2Proof.Machine

/-- Read `VCTL` (R121). -/
def execRdVctl (s : State) : Result := ioRead (fun u => u.video.vctl) id s

/-- Write `VCTL` (R122). -/
def execWrVctl (v : Byte) (s : State) : Result := ioWrite (fun u => u.setVideo { u.video with vctl := v }) s

/-- Read `VENA` (R123). -/
def execRdVena (s : State) : Result := ioRead (fun u => u.video.vena) id s

/-- Write `VENA` (R124): neither raises nor withdraws a request. -/
def execWrVena (v : Byte) (s : State) : Result := ioWrite (fun u => u.setVideo { u.video with vena := v }) s

/-- Read `VSTA` (R125): clears nothing. -/
def execRdVsta (s : State) : Result := ioRead (fun u => u.video.vsta) id s

/-- Write `VSTA` (R126): write-1-to-clear. -/
def execWrVsta (v : Byte) (s : State) : Result := ioWrite (ackStatus v) s

/-- Read `VWAIT` (R128): no stall. -/
def execRdVwait (s : State) : Result := ioRead (fun _ => Config.openBus) id s

/-- Write `VWAIT` (R127): stalls until vertical blank, the value is ignored. -/
def execWrVwait (_v : Byte) (s : State) : Result := ioWriteStall (fun u => stallWhile (fun w => !w.tim.vblank) stallBound u) s

/-- Read `SCRH` (R129). -/
def execRdScrh (s : State) : Result := ioRead (fun u => u.video.scrh) id s

/-- Write `SCRH` (R130). -/
def execWrScrh (v : Byte) (s : State) : Result := ioWrite (fun u => u.setVideo { u.video with scrh := v }) s

/-- Read `SCRHF` (R131). -/
def execRdScrhf (s : State) : Result := ioRead (fun u => u.video.scrhf.setWidth 8) id s

/-- Write `SCRHF` (R132). -/
def execWrScrhf (v : Byte) (s : State) : Result := ioWrite (fun u => u.setVideo { u.video with scrhf := v.setWidth 3 }) s

/-- Read `SCRV` (R133). -/
def execRdScrv (s : State) : Result := ioRead (fun u => u.video.scrv) id s

/-- Write `SCRV` (R134). -/
def execWrScrv (v : Byte) (s : State) : Result := ioWrite (fun u => u.setVideo { u.video with scrv := v }) s

/-- Read `SCRVF` (R135). -/
def execRdScrvf (s : State) : Result := ioRead (fun u => u.video.scrvf.setWidth 8) id s

/-- Write `SCRVF` (R136). -/
def execWrScrvf (v : Byte) (s : State) : Result := ioWrite (fun u => u.setVideo { u.video with scrvf := v.setWidth 3 }) s

/-- Read `NTSIZE` (R137). -/
def execRdNtsize (s : State) : Result := ioRead (fun u => u.video.ntsize) id s

/-- Write `NTSIZE` (R138). -/
def execWrNtsize (v : Byte) (s : State) : Result := ioWrite (fun u => u.setVideo { u.video with ntsize := v }) s

/-- Read `NTBASE` (R139). -/
def execRdNtbase (s : State) : Result := ioRead (fun u => u.video.ntbase) id s

/-- Write `NTBASE` (R140). -/
def execWrNtbase (v : Byte) (s : State) : Result := ioWrite (fun u => u.setVideo { u.video with ntbase := v }) s

end Sys2Proof.Machine
end

