-- ==== Sys2Proof/Machine/Dispatch.lean ====
section
/-! DEFINITION. One arm per operation, each the call of its meaning. -/

namespace Sys2Proof.Machine

def exec (i : Instr) (s : State) : Host.Outcome State Fault Refusal :=
  match i with
  | .rdVctl => Sys2Proof.Machine.execRdVctl s
  | .wrVctl v => Sys2Proof.Machine.execWrVctl v s
  | .rdVena => Sys2Proof.Machine.execRdVena s
  | .wrVena v => Sys2Proof.Machine.execWrVena v s
  | .rdVsta => Sys2Proof.Machine.execRdVsta s
  | .wrVsta v => Sys2Proof.Machine.execWrVsta v s
  | .rdVwait => Sys2Proof.Machine.execRdVwait s
  | .wrVwait v => Sys2Proof.Machine.execWrVwait v s
  | .rdScrh => Sys2Proof.Machine.execRdScrh s
  | .wrScrh v => Sys2Proof.Machine.execWrScrh v s
  | .rdScrhf => Sys2Proof.Machine.execRdScrhf s
  | .wrScrhf v => Sys2Proof.Machine.execWrScrhf v s
  | .rdScrv => Sys2Proof.Machine.execRdScrv s
  | .wrScrv v => Sys2Proof.Machine.execWrScrv v s
  | .rdScrvf => Sys2Proof.Machine.execRdScrvf s
  | .wrScrvf v => Sys2Proof.Machine.execWrScrvf v s
  | .rdNtsize => Sys2Proof.Machine.execRdNtsize s
  | .wrNtsize v => Sys2Proof.Machine.execWrNtsize v s
  | .rdNtbase => Sys2Proof.Machine.execRdNtbase s
  | .wrNtbase v => Sys2Proof.Machine.execWrNtbase v s
  | .rdPala => Sys2Proof.Machine.execRdPala s
  | .wrPala v => Sys2Proof.Machine.execWrPala v s
  | .rdPald => Sys2Proof.Machine.execRdPald s
  | .wrPald v => Sys2Proof.Machine.execWrPald v s
  | .rdSpra => Sys2Proof.Machine.execRdSpra s
  | .wrSpra v => Sys2Proof.Machine.execWrSpra v s
  | .rdSprd => Sys2Proof.Machine.execRdSprd s
  | .wrSprd v => Sys2Proof.Machine.execWrSprd v s
  | .rdDsrcl => Sys2Proof.Machine.execRdDsrcl s
  | .wrDsrcl v => Sys2Proof.Machine.execWrDsrcl v s
  | .rdDsrch => Sys2Proof.Machine.execRdDsrch s
  | .wrDsrch v => Sys2Proof.Machine.execWrDsrch v s
  | .rdDdstl => Sys2Proof.Machine.execRdDdstl s
  | .wrDdstl v => Sys2Proof.Machine.execWrDdstl v s
  | .rdDdsth => Sys2Proof.Machine.execRdDdsth s
  | .wrDdsth v => Sys2Proof.Machine.execWrDdsth v s
  | .rdDctl => Sys2Proof.Machine.execRdDctl s
  | .wrDctl v => Sys2Proof.Machine.execWrDctl v s
  | .rdDrun => Sys2Proof.Machine.execRdDrun s
  | .wrDrun v => Sys2Proof.Machine.execWrDrun v s
  | .rdDfill => Sys2Proof.Machine.execRdDfill s
  | .wrDfill v => Sys2Proof.Machine.execWrDfill v s
  | .rdDpage => Sys2Proof.Machine.execRdDpage s
  | .wrDpage v => Sys2Proof.Machine.execWrDpage v s
  | .rdBank2 => Sys2Proof.Machine.execRdBank2 s
  | .wrBank2 v => Sys2Proof.Machine.execWrBank2 v s
  | .rdBank3 => Sys2Proof.Machine.execRdBank3 s
  | .wrBank3 v => Sys2Proof.Machine.execWrBank3 v s
  | .rdKcol => Sys2Proof.Machine.execRdKcol s
  | .wrKcol v => Sys2Proof.Machine.execWrKcol v s
  | .rdKdata => Sys2Proof.Machine.execRdKdata s
  | .wrKdata v => Sys2Proof.Machine.execWrKdata v s
  | .rdAudio n => Sys2Proof.Machine.execRdAudio n s
  | .wrAudio n v => Sys2Proof.Machine.execWrAudio n v s
  | .rdUnmappedCE n => Sys2Proof.Machine.execRdUnmappedCE n s
  | .wrUnmappedCE n v => Sys2Proof.Machine.execWrUnmappedCE n v s
  | .rdUnmappedD6 n => Sys2Proof.Machine.execRdUnmappedD6 n s
  | .wrUnmappedD6 n v => Sys2Proof.Machine.execWrUnmappedD6 n v s
  | .rdUnmappedDE n => Sys2Proof.Machine.execRdUnmappedDE n s
  | .wrUnmappedDE n v => Sys2Proof.Machine.execWrUnmappedDE n v s
  | .rdUnmappedF0 n => Sys2Proof.Machine.execRdUnmappedF0 n s
  | .wrUnmappedF0 n v => Sys2Proof.Machine.execWrUnmappedF0 n v s
  | .rdMem0 off => Sys2Proof.Machine.execRdMem0 off s
  | .wrMem0 off v => Sys2Proof.Machine.execWrMem0 off v s
  | .rdMem1 off => Sys2Proof.Machine.execRdMem1 off s
  | .wrMem1 off v => Sys2Proof.Machine.execWrMem1 off v s
  | .rdMem2 off => Sys2Proof.Machine.execRdMem2 off s
  | .wrMem2 off v => Sys2Proof.Machine.execWrMem2 off v s
  | .rdMem3 off => Sys2Proof.Machine.execRdMem3 off s
  | .wrMem3 off v => Sys2Proof.Machine.execWrMem3 off v s
  | .cycN n => Sys2Proof.Machine.execCycN n s
  | .sync => Sys2Proof.Machine.execSync s
  | .dmaCopy f k => Sys2Proof.Machine.execDmaCopy f k s
  | .dmaFill f k => Sys2Proof.Machine.execDmaFill f k s
  | .dmaMasked f k => Sys2Proof.Machine.execDmaMasked f k s
  | .dmaApa f k => Sys2Proof.Machine.execDmaApa f k s
  | .dmaPal f k => Sys2Proof.Machine.execDmaPal f k s
  | .dmaSpr f k => Sys2Proof.Machine.execDmaSpr f k s
  | .dmaSprclr f k => Sys2Proof.Machine.execDmaSprclr f k s
  | .dmaAltfill f k => Sys2Proof.Machine.execDmaAltfill f k s
  | .fetchName => Sys2Proof.Machine.execFetchName s
  | .fetchAttr => Sys2Proof.Machine.execFetchAttr s
  | .fetchGfx0 => Sys2Proof.Machine.execFetchGfx0 s
  | .fetchGfx1 => Sys2Proof.Machine.execFetchGfx1 s
  | .fetchIdle p => Sys2Proof.Machine.execFetchIdle p s
  | .loadShiftLo => Sys2Proof.Machine.execLoadShiftLo s
  | .loadShiftHi => Sys2Proof.Machine.execLoadShiftHi s
  | .htHVisEnd => Sys2Proof.Machine.execHtHVisEnd s
  | .htHSyncStart => Sys2Proof.Machine.execHtHSyncStart s
  | .htHSyncEnd => Sys2Proof.Machine.execHtHSyncEnd s
  | .htHEarly1 => Sys2Proof.Machine.execHtHEarly1 s
  | .htHEarly2 => Sys2Proof.Machine.execHtHEarly2 s
  | .htHEarly3 => Sys2Proof.Machine.execHtHEarly3 s
  | .htHEarly4 => Sys2Proof.Machine.execHtHEarly4 s
  | .htHTotal => Sys2Proof.Machine.execHtHTotal s
  | .vtVVisEnd => Sys2Proof.Machine.execVtVVisEnd s
  | .vtVSyncStart => Sys2Proof.Machine.execVtVSyncStart s
  | .vtVSyncEnd => Sys2Proof.Machine.execVtVSyncEnd s
  | .vtVTotal => Sys2Proof.Machine.execVtVTotal s

end Sys2Proof.Machine
end

