-- ==== Sys2Proof/Machine/Step.lean ====
section
/-! DEFINITION. One step: the next pending operation is taken, decoded and executed (00_scope.md R4, R7; log 1). -/

namespace Sys2Proof.Machine

/-- One step of a run. An empty trace is the end of the run (R7; log 11). -/
def step (s : State) : Host.Outcome State Fault Refusal :=
  match s.trace with
  | [] => .refused .endOfTrace
  | w :: rest =>
    match decode w with
    | .instr i => exec i (s.setTrace rest)
    | .reject why => .refused (.noSuchOperation why)

/-- The operation of a word of the opcode table placed as the next pending operation (log 1, 2). -/
def State.withFetchWord (s : State) (nbits w : Nat) : State := s.setTrace (tableSelector nbits w :: s.trace)

end Sys2Proof.Machine
end

