-- ==== Sys2Proof/Safety.lean ====
section
/-! DEFINITION. The terms the statements are made in: the position of the engine in the frame, the invariants of 10_state.md R45 and of
the status, picture and shift registers, and the cell a DMA write reaches. -/

namespace Sys2Proof.Machine

open Sys2Proof.Config (Region)

/-- Ticks of a frame (R356). -/
def frameTicks : Nat := Config.hTotal * Config.vTotal

/-- The index in its frame of the next tick (R45 (d)). -/
def State.position (s : State) : Nat := s.tim.vcount * Config.hTotal + s.tim.hcount

/-- The latches and cursors of the timing engine are functions of its two counters (R45 (a), (b), (e), R233, R243, R284). -/
structure EngineInv (s : State) : Prop where
  hcount_lt : s.tim.hcount < Config.hTotal
  vcount_lt : s.tim.vcount < Config.vTotal
  hsub : s.tim.hsub.toNat = s.tim.hcount % 8
  hborder : s.tim.hborder = true ↔ Config.hVisEnd ≤ s.tim.hcount
  hblank : s.tim.hblank = s.tim.hborder
  vborder : s.tim.vborder = true ↔ Config.vVisEnd ≤ s.tim.vcount
  vblank : s.tim.vblank = s.tim.vborder
  hbusy : s.tim.hbusy = true ↔ s.tim.hcount < Config.hVisEnd ∨ Config.hEarly ≤ s.tim.hcount
  vbusy : s.tim.vbusy = true ↔ s.tim.vcount < Config.vVisEnd
  row : s.raster.row = min (Config.fbY0 + s.tim.vcount) (Config.fbH - 1)
  col : s.raster.col =
    Config.fbX0 + if s.tim.vcount < Config.vVisEnd ∧ s.tim.hcount < Config.hEarly then min s.tim.hcount Config.hVisEnd else 0

/-- The invariants of R45 that the types of the state do not already hold. -/
structure TimingInv (s : State) : Prop extends EngineInv s where
  /-- the engine is never ahead (R45 (c), R221) -/
  clock : s.pixelClock ≤ tickGoal s.cpuCycles
  /-- the counters are the tick count modulo a frame (R45 (d)) -/
  count : s.pixelClock % frameTicks = s.position

/-- The engine is caught up with the CPU (R221). -/
def State.caughtUp (s : State) : Prop := s.pixelClock = tickGoal s.cpuCycles

/-- The pending operations are events of the CPU collaborator (R4): no operation of the inside of the block is asked for by itself. -/
def EventTrace (s : State) : Prop := ∀ w ∈ s.trace, w.isEvent = true

/-- Only the vertical-sync flag is ever set (R83), and a request stands only while its flag does (R126, R240). -/
structure StatusInv (s : State) : Prop where
  flags : s.video.vsta &&& 0xFE = 0
  request : s.irq = true → s.video.vsta.getLsbD 0 = true

/-- A framebuffer that differs from `FB_INIT` inside the visible rectangle only (R17, R284). -/
def MarginUntouched (f : Frame) : Prop :=
  ∀ c ∈ f, Config.fbY0 ≤ c.1 / Config.fbW ∧ c.1 / Config.fbW < Config.fbY0 + Config.vVisEnd ∧
    Config.fbX0 ≤ c.1 % Config.fbW ∧ c.1 % Config.fbW < Config.fbX0 + Config.hVisEnd

/-- The framebuffer and every frame handed out leave the margin untouched. -/
def PictureInv (s : State) : Prop := MarginUntouched s.raster.fb ∧ ∀ f ∈ s.framesOut, MarginUntouched f

/-- The bits that the shifts since the last load have emptied are zero: none just after a load (phases 5 and 1), two more with each
phase (R275 to R277). -/
def ShiftInv (s : State) : Prop := s.pipe.sr.toNat % 2 ^ (2 * ((s.tim.hsub.toNat + 3) % 4)) = 0

/-- The byte a DMA write of a space and address reaches, if it reaches one (R58, R183). -/
def State.dmaCell (s : State) (vram : Bool) (a : Addr) : Option (Region × Nat) :=
  if vram then some (.vram, a.toNat % Config.vramSize)
  else
    let b := s.bind (addrWindow a)
    if b.writable then b.region.map fun r => (r, bankCell b (addrOffset a)) else none

/-- `t`'s memories are `s`'s, but for one byte if one is stored. -/
def StoresOnly (cell : Option (Region × Nat)) (v : Byte) (s t : State) : Prop :=
  ∀ (r : Region) (a : Nat), t.peek r a = if cell = some (r, a) then v else s.peek r a

/-- The counters and latches of the timing engine, the status byte, the request and the number of frames handed out are those of `s`
after `n` charged cycles: no memory has a part in them. -/
structure EngineAfter (n : Nat) (s t : State) : Prop where
  tim : t.tim = (cycle^[n] s).tim
  flag : t.video.vsta = (cycle^[n] s).video.vsta
  request : t.irq = (cycle^[n] s).irq
  frames : t.framesOut.length = (cycle^[n] s).framesOut.length

/-- The state with a byte stored in a cell, if there is one. -/
def State.store (s : State) (cell : Option (Region × Nat)) (v : Byte) : State :=
  match cell with
  | some (r, a) => s.poke r a v
  | none => s

/-- What every granted transfer step leaves behind (R71, R184 to R186): a wait of `k` whole cycles, in each of which the VRAM port was
busy, none if the step does not touch VRAM; then the read cycle; then the store, and after it the write cycle, whose ticks see the byte
just stored; then the DMA registers. That is the whole state, so the pipeline, the pictures and the frames handed out too. The
other fields say of it what needs no tick to be run: the engine is caught up; no register but the DMA registers and the engine's own
has changed, no byte is returned. -/
structure StepDone (touches : Bool) (d : DmaRegs) (cell : Option (Region × Nat)) (v : Byte) (s t : State) : Prop where
  waits : ∃ k, (touches = false → k = 0) ∧ (∀ j < k, (cycle^[j] s).vramBusy = true) ∧
    (touches = true → (cycle^[k] s).vramBusy = false) ∧ t.cpuCycles = s.cpuCycles + k + 2 ∧ EngineAfter (k + 2) s t ∧
    t = (cycle ((cycle^[k + 1] s).store cell v)).setDma d
  clock : t.caughtUp
  dma : t.dma = d
  stores : StoresOnly cell v s t
  video : t.video = { s.video with vsta := t.video.vsta }
  sys : t.sys = s.sys
  readsOut : t.readsOut = s.readsOut
  trace : t.trace = s.trace

/-- Cycles waited in the steps before step `i`, where step `j` waits `k j` cycles. -/
def waitsBefore (k : Nat → Nat) : Nat → Nat
  | 0 => 0
  | i + 1 => waitsBefore k i + k i

/-- The waits of a transfer of `n` steps that starts at `s` (R185, R199): step `i` starts after two cycles for each earlier step and the
waits so far; a wait is made of cycles in which the VRAM port is busy and ends with the first in which it is not; there is none where no
step touches VRAM. -/
structure TransferWaits (touches : Bool) (n : Nat) (k : Nat → Nat) (s : State) : Prop where
  none : touches = false → ∀ i < n, k i = 0
  busy : ∀ i < n, ∀ j < k i, (cycle^[2 * i + waitsBefore k i + j] s).vramBusy = true
  free : touches = true → ∀ i < n, (cycle^[2 * i + waitsBefore k i + k i] s).vramBusy = false

/-- The increment of a transfer (R182), as an integer: the name-table width in bytes, `2 * W`, or 1, with its sign. -/
def transferIncrement (ntsize : Byte) (f : DmaFlags) : Int :=
  let mag : Int := if f.vert then 64 * 2 ^ (ntsize.toNat % 4) else 1
  if f.rev then -mag else mag

/-- The column `touches_vram` of R187. -/
def transferTouchesVram (m : DmaMode) (f : DmaFlags) : Bool :=
  match m with
  | .copy => f.srcv || f.dstv
  | .fill => f.dstv
  | .masked => f.srcv || f.dstv
  | .apa => f.srcv || f.dstv
  | .pal => false
  | .spr => false
  | .sprclr => false
  | .altfill => f.dstv

/-- The column `reads_src` of R187. -/
def transferReadsSource (m : DmaMode) : Bool :=
  match m with
  | .copy => true
  | .fill => false
  | .masked => true
  | .apa => true
  | .pal => true
  | .spr => true
  | .sprclr => false
  | .altfill => false

/-- The steps of a transfer (R181). -/
def transferSteps (run : Byte) : Nat := if run = 0 then 256 else run.toNat

/-- What is done by executing operations one after another, none of which stops. -/
def execAll : List Instr → State → Option State
  | [], s => some s
  | i :: r, s =>
    match exec i s with
    | .next t => execAll r t
    | .fault _ => none
    | .refused _ => none

end Sys2Proof.Machine
end

