-- ==== Sys2Proof/Certificates/Slice0/Obligations.lean ====
section
/-! DEFINITION. The statements for the provers. `TimingInv` (R45) rules out the states that no run reaches; a statement that does not
need it does not assume it. In a register file access, `advance s` is the state after the ticks that are due (R112): what those ticks
leave alone is `ClockEvents`. -/

open Sys2Proof Sys2Proof.Machine
open Sys2Proof.Config (Region Interlock)

/-! ### Encoding -/

/-- R51, R80 to R87, R223, R235, R260: an operation is read back from its encoding exactly when it is well-formed; no bit of an operand
is dropped. -/
def Obligations.DecodeAndEncodeAgree : Prop := ∀ i : Instr, decode (encode i) = .instr i ↔ i.wf = true

/-- R81, R98: an encoded operation that is accepted is the encoding of what it decodes to, so no two operations share one; and every
event of the CPU collaborator is accepted. -/
def Obligations.EveryEventHasOneOperation : Prop :=
  (∀ w i, decode w = .instr i → encode i = w ∧ i.wf = true) ∧ ∀ w : Selector, w.isEvent = true → ∃ i, decode w = .instr i

/-- R51, R55, R116: the I/O window comes first and never reaches a bank window; outside it the top two bits select the window and the
other fourteen the byte. -/
def Obligations.AddressesAreDecodedInOrder : Prop :=
  ∀ (a : Addr) (v : Byte),
    ((0x00C0 ≤ a.toNat ∧ a.toNat ≤ 0x00FF) →
      decodeRead a = decodeIoRead (a.toNat - 0x00C0) ∧ decodeWrite a v = decodeIoWrite (a.toNat - 0x00C0) v ∧
        ∀ off, decodeRead a ≠ .rdMem0 off ∧ decodeRead a ≠ .rdMem1 off ∧ decodeRead a ≠ .rdMem2 off ∧ decodeRead a ≠ .rdMem3 off ∧
          decodeWrite a v ≠ .wrMem0 off v ∧ decodeWrite a v ≠ .wrMem1 off v ∧ decodeWrite a v ≠ .wrMem2 off v ∧
          decodeWrite a v ≠ .wrMem3 off v) ∧
    (¬(0x00C0 ≤ a.toNat ∧ a.toNat ≤ 0x00FF) →
      decodeRead a =
        (if a.toNat < 0x4000 then .rdMem0 (BitVec.ofNat 14 a.toNat)
        else if a.toNat < 0x8000 then .rdMem1 (BitVec.ofNat 14 a.toNat)
        else if a.toNat < 0xC000 then .rdMem2 (BitVec.ofNat 14 a.toNat) else .rdMem3 (BitVec.ofNat 14 a.toNat)) ∧
      decodeWrite a v =
        (if a.toNat < 0x4000 then .wrMem0 (BitVec.ofNat 14 a.toNat) v
        else if a.toNat < 0x8000 then .wrMem1 (BitVec.ofNat 14 a.toNat) v
        else if a.toNat < 0xC000 then .wrMem2 (BitVec.ofNat 14 a.toNat) v else .wrMem3 (BitVec.ofNat 14 a.toNat) v))

/-- R80, R86, R87, R100, R223, R235, R260, R277: a few encodings written out from the tables. -/
def Obligations.WrittenEncodingsDecode : Prop :=
  decode (.cyc 96) = .instr (.cycN 96) ∧ decode .sync = .instr .sync ∧
    decode (.rd 0x00C2) = .instr .rdVsta ∧ decode (.wr 0x00D5 0x10) = .instr (.wrDrun 0x10) ∧
    decode (.rd 0x00CB) = .instr .rdPald ∧ decode (.wr 0x00DA 0x01) = .instr (.wrBank2 0x01) ∧
    decode (.rd 0x00E5) = .instr (.rdAudio 5) ∧ decode (.rd 0x00CF) = .instr (.rdUnmappedCE 1) ∧
    decode (.rd 0x1234) = .instr (.rdMem0 0x1234) ∧ decode (.wr 0xC001 0x7F) = .instr (.wrMem3 0x0001 0x7F) ∧
    decode (.dctl 0xD2 3) = .instr (.dmaMasked { srcv := true, dstv := true, vert := false, rev := true, bit3 := false } 3) ∧
    decode (.fetchSlot 4) = .instr .fetchGfx0 ∧ decode (.loadSlot 0) = .instr .loadShiftHi ∧
    decode (.hcount 416 3) = .instr .htHEarly3 ∧ decode (.vcount 243) = .instr .vtVSyncStart

/-! ### Steps, reset and invariants -/

/-- R4, R7 (log 1, 11): a step takes the next pending operation and executes what it decodes to; with none pending the run has ended. -/
def Obligations.StepRunsTheDecodedOperation : Prop :=
  (∀ (s : State) (w : Selector) (rest : List Selector), s.trace = w :: rest →
      (∀ i, decode w = .instr i → step s = exec i (s.setTrace rest)) ∧
        ∀ e, decode w = .reject e → step s = .refused (.noSuchOperation e)) ∧
    ∀ s : State, s.trace = [] → step s = .refused .endOfTrace

/-- R330, R331: what reset leaves, as the reset state and as an operation on any state. -/
def Obligations.ResetLeaves : Prop :=
  (∀ s : State,
      (applyReset s).cpuCycles = 0 ∧ (applyReset s).pixelClock = 0 ∧
        (applyReset s).video =
          { vctl := 0, vena := 0, vsta := 0, scrh := 0, scrhf := 0, scrv := 0, scrvf := 0, ntsize := 0, ntbase := 0, pala := 0, spra := 0 } ∧
        (applyReset s).dma = { dsrc := 0, ddst := 0, dctl := 0, drun := 0, dfill := 0, dpage := 0 } ∧
        (applyReset s).sys = { bank2 := 0, bank3 := 0, kcol := 0 } ∧ (applyReset s).irq = false ∧
        (applyReset s).tim =
          { hcount := 0, htile := 0, hsub := 0, vcount := 0, vtile := 0, vsub := 0, hborder := false, hblank := false, vborder := false,
            vblank := false, hbusy := true, vbusy := true } ∧
        (applyReset s).pipe = { name := 0, attrF := 0, attrA := 0, gfx0 := 0, gfx1 := 0, sr := 0, pix := 0 } ∧
        (applyReset s).raster.row = 24 ∧ (applyReset s).raster.col = 32 ∧ (applyReset s).framesOut = [] ∧
        (applyReset s).raster.fb = s.raster.fb ∧ ∀ r a, (applyReset s).peek r a = s.peek r a) ∧
    applyReset State.reset = State.reset ∧ ∀ row col, fbRead State.reset.raster.fb row col = 0xFF000000

/-- R45, R83, R17, R277, R24: the reset state satisfies every invariant stated below. -/
def Obligations.ResetSatisfiesTheInvariants : Prop :=
  TimingInv State.reset ∧ EventTrace State.reset ∧ State.reset.memWf ∧ StatusInv State.reset ∧ PictureInv State.reset ∧
    ShiftInv State.reset ∧ State.reset.dma.drun = 0

/-- R45, which the spec marks as derived: the invariants of the timing engine are kept by every event. -/
def Obligations.StepKeepsTheTimingInvariant : Prop :=
  ∀ s t : State, TimingInv s → EventTrace s → step s = .next t → TimingInv t ∧ EventTrace t

/-- R314, R7: every event returns; neither a fault nor a refusal is ever answered. -/
def Obligations.EveryEventReturns : Prop :=
  ∀ (s : State) (w : Selector) (rest : List Selector), TimingInv s → s.trace = w :: rest → w.isEvent = true → ∃ t, step s = .next t

/-- R52 to R54, R58 (log 14, 15): every operation keeps every memory and every framebuffer in its canonical form. -/
def Obligations.StepKeepsTheMemoryForm : Prop := ∀ s t : State, s.memWf → step s = .next t → t.memWf

/-- R83, R126, R240: bits 7 to 1 of the status byte are never set, and a request never outlives its flag. -/
def Obligations.StepKeepsTheStatusInvariant : Prop := ∀ s t : State, StatusInv s → step s = .next t → StatusInv t

/-- R17, R284: no event writes the border margin of the framebuffer, nor hands out a frame in which it was written. -/
def Obligations.StepKeepsTheMargin : Prop :=
  ∀ s t : State, TimingInv s → EventTrace s → PictureInv s → step s = .next t → PictureInv t

/-- R275 to R277: at each load the low 8 bits of the shift register are zero, so the load destroys no pixels. -/
def Obligations.LoadsDestroyNoPixels : Prop :=
  (∀ s t : State, TimingInv s → EventTrace s → ShiftInv s → step s = .next t → ShiftInv t) ∧
    ∀ s : State, ShiftInv s → (s.tim.hsub = 4 ∨ s.tim.hsub = 0) → (shiftPixels s).pipe.sr.toNat % 256 = 0

/-- R159: the CPU always reads 0 from `DRUN`: it is 0 after reset and after every event, and a read returns it. -/
def Obligations.RunCountReadsZero : Prop :=
  (∀ s : State, exec .rdDrun s = .next ((advance s).returned s.dma.drun)) ∧ State.reset.dma.drun = 0 ∧
    ∀ s t : State, s.dma.drun = 0 → EventTrace s → step s = .next t → t.dma.drun = 0

/-! ### Who writes what -/

/-- R13 to R16, R335: the ROM is never written; video memory is written by the DMA engine only; palette and sprite memory by their ports
and the DMA engine; system memory by bus writes outside the I/O window and the DMA engine. -/
def Obligations.EveryMemoryHasItsWriters : Prop :=
  ∀ (s t : State) (w : Selector) (rest : List Selector), s.trace = w :: rest → step s = .next t →
    t.mem.rom = s.mem.rom ∧
    (t.mem.vram ≠ s.mem.vram → (∃ v, w = .wr 0x00D5 v) ∨ ∃ b i, w = .dctl b i) ∧
    (t.mem.pal ≠ s.mem.pal → (∃ v, w = .wr 0x00CB v) ∨ (∃ v, w = .wr 0x00D5 v) ∨ ∃ b i, w = .dctl b i) ∧
    (t.mem.spr ≠ s.mem.spr → (∃ v, w = .wr 0x00CD v) ∨ (∃ v, w = .wr 0x00D5 v) ∨ ∃ b i, w = .dctl b i) ∧
    (t.mem.ram0 ≠ s.mem.ram0 ∨ t.mem.ram1 ≠ s.mem.ram1 ∨ t.mem.cart ≠ s.mem.cart →
      (∃ a v, w = .wr a v ∧ ¬(0x00C0 ≤ a.toNat ∧ a.toNat ≤ 0x00FF)) ∨ (∃ v, w = .wr 0x00D5 v) ∨ ∃ b i, w = .dctl b i)

/-- R177, which the spec marks as derived: a register changes only by the accesses its row of the summary table names (the status byte
apart, which the engine sets). -/
def Obligations.EveryRegisterHasItsWriters : Prop :=
  ∀ (s t : State) (w : Selector) (rest : List Selector), s.trace = w :: rest → step s = .next t →
    (t.video.vctl ≠ s.video.vctl → ∃ v, w = .wr 0x00C0 v) ∧
    (t.video.vena ≠ s.video.vena → ∃ v, w = .wr 0x00C1 v) ∧
    (t.video.scrh ≠ s.video.scrh → ∃ v, w = .wr 0x00C4 v) ∧
    (t.video.scrhf ≠ s.video.scrhf → ∃ v, w = .wr 0x00C5 v) ∧
    (t.video.scrv ≠ s.video.scrv → ∃ v, w = .wr 0x00C6 v) ∧
    (t.video.scrvf ≠ s.video.scrvf → ∃ v, w = .wr 0x00C7 v) ∧
    (t.video.ntsize ≠ s.video.ntsize → ∃ v, w = .wr 0x00C8 v) ∧
    (t.video.ntbase ≠ s.video.ntbase → ∃ v, w = .wr 0x00C9 v) ∧
    (t.video.pala ≠ s.video.pala → w = .rd 0x00CB ∨ ∃ v, w = .wr 0x00CA v ∨ w = .wr 0x00CB v) ∧
    (t.video.spra ≠ s.video.spra → w = .rd 0x00CD ∨ ∃ v, w = .wr 0x00CC v ∨ w = .wr 0x00CD v) ∧
    (t.dma.dctl ≠ s.dma.dctl → ∃ v, w = .wr 0x00D4 v) ∧
    (t.dma.drun ≠ s.dma.drun → (∃ v, w = .wr 0x00D5 v) ∨ ∃ b i, w = .dctl b i) ∧
    (t.dma.dsrc ≠ s.dma.dsrc → (∃ v, w = .wr 0x00D0 v ∨ w = .wr 0x00D1 v ∨ w = .wr 0x00D5 v) ∨ ∃ b i, w = .dctl b i) ∧
    (t.dma.ddst ≠ s.dma.ddst → (∃ v, w = .wr 0x00D2 v ∨ w = .wr 0x00D3 v ∨ w = .wr 0x00D5 v) ∨ ∃ b i, w = .dctl b i) ∧
    (t.dma.dfill ≠ s.dma.dfill → (∃ v, w = .wr 0x00D8 v ∨ w = .wr 0x00D5 v) ∨ ∃ b i, w = .dctl b i) ∧
    (t.dma.dpage ≠ s.dma.dpage → (∃ v, w = .wr 0x00D9 v ∨ w = .wr 0x00D5 v) ∨ ∃ b i, w = .dctl b i) ∧
    (t.sys.bank2 ≠ s.sys.bank2 → ∃ v, w = .wr 0x00DA v) ∧
    (t.sys.bank3 ≠ s.sys.bank3 → ∃ v, w = .wr 0x00DB v) ∧
    (t.sys.kcol ≠ s.sys.kcol → ∃ v, w = .wr 0x00DC v)

/-- R306, R307: once raised, the request stays until a write of `VSTA` with bit 0 set. -/
def Obligations.InterruptStaysUntilAcknowledged : Prop :=
  ∀ (s t : State) (w : Selector) (rest : List Selector), StatusInv s → s.irq = true → s.trace = w :: rest → step s = .next t →
    t.irq = true ∨ ∃ v : Byte, w = .wr 0x00C2 v ∧ v.getLsbD 0 = true

/-! ### The clocks and the frame -/

/-- R4, R220, R221: a cycle calls for 4 ticks from an even count and 5 from an odd one; `Cycles(n)` adds to the cycle counter and changes
nothing else; `CatchUp` runs the ticks that are due, none if the engine is caught up, so a second one changes nothing; what ticks leave
alone is all of memory, every register but the status byte, the DMA registers and the outputs; they set the flag, raise the request and
append frames, never the reverse. -/
def Obligations.ClockEvents : Prop :=
  (∀ c : Nat, 9 * (c + 1) / 2 - 9 * c / 2 = if c % 2 = 0 then 4 else 5) ∧
    (∀ (n : Nat) (s : State), exec (.cycN n) s = .next { s with cpuCycles := s.cpuCycles + n }) ∧
    ∀ s : State, ∃ t,
      exec .sync s = .next t ∧ t = ticks (9 * s.cpuCycles / 2 - s.pixelClock) s ∧
        t.pixelClock = max s.pixelClock (9 * s.cpuCycles / 2) ∧ (9 * s.cpuCycles / 2 ≤ s.pixelClock → t = s) ∧ exec .sync t = .next t ∧
        t.cpuCycles = s.cpuCycles ∧ t.mem = s.mem ∧ t.dma = s.dma ∧ t.sys = s.sys ∧ t.readsOut = s.readsOut ∧ t.trace = s.trace ∧
        t.video = { s.video with vsta := t.video.vsta } ∧ (t.video.vsta = s.video.vsta ∨ t.video.vsta = s.video.vsta ||| 1) ∧
        (s.irq = true → t.irq = true) ∧ ∃ l, t.framesOut = s.framesOut ++ l

/-- R184, R355: a charged cycle of a caught-up engine runs 4 ticks from an even count and 5 from an odd one. -/
def Obligations.CyclesCarryFourOrFiveTicks : Prop :=
  ∀ s : State, s.caughtUp →
    cycle s = ticks (if s.cpuCycles % 2 = 0 then 4 else 5) (s.addCycles 1) ∧ (cycle s).caughtUp ∧
      (cycle s).pixelClock = s.pixelClock + if s.cpuCycles % 2 = 0 then 4 else 5

/-- R2, R67, R220: how often the engine is caught up makes no difference to the state it ends in. -/
def Obligations.CatchingUpEarlierChangesNothing : Prop :=
  ∀ (s : State) (a b : Nat), advance ((advance (s.addCycles a)).addCycles b) = advance (s.addCycles (a + b))

/-- R224, R225, R226, R229, R230, R234, R242, R45 (d): `n` ticks move the counters `n` places on in a frame of 262 lines of 432 ticks; a
tick moves the sub-tile phase on, the tile column with its wrap, modulo the table width, and the pixel and tile row at the early window
and the frame wrap only. -/
def Obligations.TicksMoveTheCounters : Prop :=
  (∀ (s : State) (n : Nat), EngineInv s →
    (ticks n s).tim.hcount = (432 * s.tim.vcount + s.tim.hcount + n) % 432 ∧
      (ticks n s).tim.vcount = (432 * s.tim.vcount + s.tim.hcount + n) / 432 % 262) ∧
    ∀ (s : State) (w h : Nat), w = 32 * 2 ^ (s.video.ntsize.toNat % 4) → h = 32 * 2 ^ (s.video.ntsize.toNat / 4 % 4) →
      (tick s).tim.hsub = (if s.tim.hcount = 431 then 0 else s.tim.hsub + 1) ∧
        (tick s).tim.htile =
          (if s.tim.hcount = 415 then BitVec.ofNat 8 (s.video.scrh.toNat % w)
          else if s.tim.hsub = 7 then BitVec.ofNat 8 ((s.tim.htile.toNat + 1) % w) else s.tim.htile) ∧
        (tick s).tim.vsub =
          (if s.tim.hcount = 415 then s.tim.vsub + 1
          else if s.tim.hcount = 431 ∧ s.tim.vcount = 261 then s.video.scrvf else s.tim.vsub) ∧
        (tick s).tim.vtile =
          (if s.tim.hcount = 415 ∧ s.tim.vsub = 7 then BitVec.ofNat 8 ((s.tim.vtile.toNat + 1) % h)
          else if s.tim.hcount = 431 ∧ s.tim.vcount = 261 then BitVec.ofNat 8 (s.video.scrv.toNat % h) else s.tim.vtile)

/-- R247, R356: after a frame's worth of CPU cycles the counters are where they were, exactly one frame has been handed out, the flag is
set, and the request too if it was enabled; from reset the line counter is back at 0. -/
def Obligations.OneFrameOfCycles : Prop :=
  (∀ s : State, TimingInv s → s.caughtUp →
      (advance (s.addCycles 25152)).tim.hcount = s.tim.hcount ∧ (advance (s.addCycles 25152)).tim.vcount = s.tim.vcount ∧
        (∃ f, (advance (s.addCycles 25152)).framesOut = s.framesOut ++ [f]) ∧
        (advance (s.addCycles 25152)).video.vsta.getLsbD 0 = true ∧
        (s.video.vena.getLsbD 0 = true → (advance (s.addCycles 25152)).irq = true)) ∧
    (advance (State.reset.addCycles 25152)).tim.vcount = 0 ∧ (advance (State.reset.addCycles 25152)).tim.hcount = 0 ∧
    (advance (State.reset.addCycles 25152)).framesOut.length = 1

/-- R246: after `M` lines from reset `(M + 22) / 262` frames have been handed out, and the flag is set from line 243 on. The same from
any state whose engine is caught up, wherever in a line it stands: after `M` lines of cycles the tick stands at the same place of its line,
`M` lines on; a frame has been handed out for each passage of the end of line 239; the flag is set if it was or if the end of line 242 has
been passed, the request if it was or if that passage found it enabled. -/
def Obligations.FrameCadence : Prop :=
  (∀ M : Nat, (advance (State.reset.addCycles (96 * M))).framesOut.length = (M + 22) / 262 ∧
    ((advance (State.reset.addCycles (96 * M))).video.vsta.getLsbD 0 = true ↔ 243 ≤ M)) ∧
  ∀ (s t : State) (M : Nat), TimingInv s → s.caughtUp → t = advance (s.addCycles (96 * M)) →
    t.tim.hcount = s.tim.hcount ∧ t.tim.vcount = (s.tim.vcount + M) % 262 ∧
    t.framesOut.length = s.framesOut.length + ((s.tim.vcount + M + 22) / 262 - (s.tim.vcount + 22) / 262) ∧
    (t.video.vsta.getLsbD 0 = true ↔
      s.video.vsta.getLsbD 0 = true ∨ (s.tim.vcount + 19) / 262 < (s.tim.vcount + M + 19) / 262) ∧
    (t.irq = true ↔
      s.irq = true ∨ s.video.vena.getLsbD 0 = true ∧ (s.tim.vcount + 19) / 262 < (s.tim.vcount + M + 19) / 262)

/-! ### Register reads -/

/-- R121, R123, R125, R129, R131, R133, R135, R137, R139, R141, R145: each read returns the register as last written, the status byte as
the ticks due have left it, and changes nothing else. -/
def Obligations.VideoRegisterReads : Prop :=
  ∀ s : State,
    exec .rdVctl s = .next ((advance s).returned s.video.vctl) ∧
    exec .rdVena s = .next ((advance s).returned s.video.vena) ∧
    exec .rdVsta s = .next ((advance s).returned (advance s).video.vsta) ∧
    (StatusInv s → (advance s).video.vsta = 0 ∨ (advance s).video.vsta = 1) ∧
    exec .rdScrh s = .next ((advance s).returned s.video.scrh) ∧
    exec .rdScrhf s = .next ((advance s).returned (BitVec.ofNat 8 s.video.scrhf.toNat)) ∧
    exec .rdScrv s = .next ((advance s).returned s.video.scrv) ∧
    exec .rdScrvf s = .next ((advance s).returned (BitVec.ofNat 8 s.video.scrvf.toNat)) ∧
    exec .rdNtsize s = .next ((advance s).returned s.video.ntsize) ∧
    exec .rdNtbase s = .next ((advance s).returned s.video.ntbase) ∧
    exec .rdPala s = .next ((advance s).returned (BitVec.ofNat 8 s.video.pala.toNat)) ∧
    exec .rdSpra s = .next ((advance s).returned s.video.spra)

/-- R149, R151, R153, R155, R157, R161, R163, R165, R167, R169: the reads of the DMA, banking and keyboard column registers return the
register's value and change nothing else. -/
def Obligations.DmaAndSystemRegisterReads : Prop :=
  ∀ s : State,
    exec .rdDsrcl s = .next ((advance s).returned (BitVec.ofNat 8 (s.dma.dsrc.toNat % 256))) ∧
    exec .rdDsrch s = .next ((advance s).returned (BitVec.ofNat 8 (s.dma.dsrc.toNat / 256))) ∧
    exec .rdDdstl s = .next ((advance s).returned (BitVec.ofNat 8 (s.dma.ddst.toNat % 256))) ∧
    exec .rdDdsth s = .next ((advance s).returned (BitVec.ofNat 8 (s.dma.ddst.toNat / 256))) ∧
    exec .rdDctl s = .next ((advance s).returned s.dma.dctl) ∧
    exec .rdDfill s = .next ((advance s).returned s.dma.dfill) ∧
    exec .rdDpage s = .next ((advance s).returned s.dma.dpage) ∧
    exec .rdBank2 s = .next ((advance s).returned s.sys.bank2) ∧
    exec .rdBank3 s = .next ((advance s).returned s.sys.bank3) ∧
    exec .rdKcol s = .next ((advance s).returned (BitVec.ofNat 8 s.sys.kcol.toNat))

/-- R171: a read of `KDATA` returns what the keyboard provider gives for the selected column, and changes nothing else. That the
provider's answer depends on how many reads came before this one is the model's choice (log 5). -/
def Obligations.KeyboardRead : Prop :=
  ∀ s : State, exec .rdKdata s = .next ((advance s).returned (Config.keyMatrix s.readsOut.length s.sys.kcol))

/-- R128, R173, R175: the reads that return the open-bus byte, without a stall. -/
def Obligations.OpenBusReads : Prop :=
  ∀ (s : State) (m : BitVec 4) (n : BitVec 1),
    exec .rdVwait s = .next ((advance s).returned 0xFF) ∧
    exec (.rdAudio m) s = .next ((advance s).returned 0xFF) ∧
    exec (.rdUnmappedCE n) s = .next ((advance s).returned 0xFF) ∧
    exec (.rdUnmappedD6 n) s = .next ((advance s).returned 0xFF) ∧
    exec (.rdUnmappedDE n) s = .next ((advance s).returned 0xFF) ∧
    exec (.rdUnmappedF0 m) s = .next ((advance s).returned 0xFF)

/-- R143, R147: a read of a data port returns the byte at the address register, open bus for a sprite index out of range, and moves the
address register on, modulo 64 and modulo 160. -/
def Obligations.DataPortReads : Prop :=
  ∀ s : State,
    exec .rdPald s =
      .next (((advance s).setVideo { (advance s).video with pala := s.video.pala + 1 }).returned (s.peek .pal s.video.pala.toNat)) ∧
    exec .rdSprd s =
      .next
        (((advance s).setVideo
            { (advance s).video with
              spra := BitVec.ofNat 8
                (if s.video.spra.toNat < 159 then s.video.spra.toNat + 1 else if s.video.spra.toNat = 159 then 0
                else s.video.spra.toNat + 1 - 160) }).returned
          (if s.video.spra.toNat < 160 then s.peek .spr s.video.spra.toNat else 0xFF))

/-! ### Register writes -/

/-- R122, R130, R132, R134, R136, R138, R140, R142, R146: each write stores its byte, reduced to the register's width, after the ticks
due, charges no cycle and changes nothing else. -/
def Obligations.VideoRegisterWrites : Prop :=
  ∀ (v : Byte) (s : State),
    exec (.wrVctl v) s = .next ((advance s).setVideo { (advance s).video with vctl := v }) ∧
    exec (.wrScrh v) s = .next ((advance s).setVideo { (advance s).video with scrh := v }) ∧
    exec (.wrScrhf v) s = .next ((advance s).setVideo { (advance s).video with scrhf := BitVec.ofNat 3 (v.toNat % 8) }) ∧
    exec (.wrScrv v) s = .next ((advance s).setVideo { (advance s).video with scrv := v }) ∧
    exec (.wrScrvf v) s = .next ((advance s).setVideo { (advance s).video with scrvf := BitVec.ofNat 3 (v.toNat % 8) }) ∧
    exec (.wrNtsize v) s = .next ((advance s).setVideo { (advance s).video with ntsize := v }) ∧
    exec (.wrNtbase v) s = .next ((advance s).setVideo { (advance s).video with ntbase := v }) ∧
    exec (.wrPala v) s = .next ((advance s).setVideo { (advance s).video with pala := BitVec.ofNat 6 (v.toNat % 64) }) ∧
    exec (.wrSpra v) s = .next ((advance s).setVideo { (advance s).video with spra := v })

/-- R124, R126: a write of `VENA` neither raises nor withdraws a request; a write of `VSTA` clears the bits that are 1 in the value and
the request follows its flag down; writing 0 changes nothing. -/
def Obligations.EnableAndStatusWrites : Prop :=
  (∀ (v : Byte) (s : State), ∃ t,
      exec (.wrVena v) s = .next t ∧ t = (advance s).setVideo { (advance s).video with vena := v } ∧ t.irq = (advance s).irq ∧
        t.video.vsta = (advance s).video.vsta) ∧
    ∀ (v : Byte) (s : State), ∃ t,
      exec (.wrVsta v) s = .next t ∧
        t = ((advance s).setVideo { (advance s).video with vsta := t.video.vsta }).setIrq t.irq ∧
        (∀ k < 8, t.video.vsta.getLsbD k = ((advance s).video.vsta.getLsbD k && !v.getLsbD k)) ∧
        t.irq = ((advance s).irq && t.video.vsta.getLsbD 0) ∧ (StatusInv s → v = 0 → t = advance s)

/-- R127, R312: a write of `VWAIT` runs whole cycles until vertical blank: as many as are left to cycle 23040 of the frame, 23040 from
the first cycle of line 0, none in the blank; on return the engine is caught up in a line from 240 on; the byte is ignored; all that
happens is what these cycles do; no memory and no register but the status byte changes. -/
def Obligations.VerticalBlankWait : Prop :=
  ∀ (v : Byte) (s : State) (k : Nat), TimingInv s → k = 23040 - s.cpuCycles % 25152 → ∃ t,
    exec (.wrVwait v) s = .next t ∧ t = cycle^[k] (advance s) ∧ t.tim.vblank = true ∧
      (∀ j < k, (cycle^[j] (advance s)).tim.vblank = false) ∧ 240 ≤ t.tim.vcount ∧ t.caughtUp ∧ t.cpuCycles = s.cpuCycles + k ∧
      t.mem = s.mem ∧ t.dma = s.dma ∧ t.sys = s.sys ∧ t.readsOut = s.readsOut ∧ t.trace = s.trace ∧
      t.video = { s.video with vsta := t.video.vsta }

/-- R144: a write of `PALD` stores at the palette address and moves it on, and a pixel of that entry drawn from then on has the new
colour; `N` writes from address `A` fill `A, A+1, …` modulo 64, leave
the address at `A + N` modulo 64, and change no other byte. -/
def Obligations.PalettePortWrites : Prop :=
  (∀ (v : Byte) (s : State),
      exec (.wrPald v) s =
        .next (((advance s).poke .pal s.video.pala.toNat v).setVideo { (advance s).video with pala := s.video.pala + 1 })) ∧
    (∀ (v : Byte) (s : State), ∃ t,
      exec (.wrPald v) s = .next t ∧ (t.palIndex = s.video.pala → t.pixelColour = decodeColour v)) ∧
    ∀ (l : List Byte) (s : State), l.length ≤ 64 → ∃ t,
      execAll (l.map Instr.wrPald) s = some t ∧ t.video.pala.toNat = (s.video.pala.toNat + l.length) % 64 ∧
        (∀ (j : Nat) (h : j < l.length), t.peek .pal ((s.video.pala.toNat + j) % 64) = l[j]) ∧
        ∀ (r : Region) (a : Nat), (r ≠ .pal ∨ ∀ j < l.length, a ≠ (s.video.pala.toNat + j) % 64) → t.peek r a = s.peek r a

/-- R148: a write of `SPRD` stores at the sprite address if it is below 160 and moves it on in either case; sprite memory never changes
the picture. -/
def Obligations.SpritePortWrites : Prop :=
  (∀ (v : Byte) (s : State), ∃ t,
      exec (.wrSprd v) s = .next t ∧
        StoresOnly (if s.video.spra.toNat < 160 then some (.spr, s.video.spra.toNat) else none) v s t ∧
        t = ((advance s).setMem t.mem).setVideo
          { (advance s).video with
            spra := BitVec.ofNat 8
              (if s.video.spra.toNat < 159 then s.video.spra.toNat + 1 else if s.video.spra.toNat = 159 then 0
              else s.video.spra.toNat + 1 - 160) }) ∧
    ∀ (s : State) (a n : Nat) (v : Byte), (ticks n (s.poke .spr a v)).raster = (ticks n s).raster

/-- R150, R152, R154, R156: a write of a counter byte replaces that half of the counter at once and leaves the other half. -/
def Obligations.CounterByteWrites : Prop :=
  ∀ (v : Byte) (s : State),
    exec (.wrDsrcl v) s =
      .next ((advance s).setDma { s.dma with dsrc := BitVec.ofNat 16 (s.dma.dsrc.toNat / 256 * 256 + v.toNat) }) ∧
    exec (.wrDsrch v) s =
      .next ((advance s).setDma { s.dma with dsrc := BitVec.ofNat 16 (v.toNat * 256 + s.dma.dsrc.toNat % 256) }) ∧
    exec (.wrDdstl v) s =
      .next ((advance s).setDma { s.dma with ddst := BitVec.ofNat 16 (s.dma.ddst.toNat / 256 * 256 + v.toNat) }) ∧
    exec (.wrDdsth v) s =
      .next ((advance s).setDma { s.dma with ddst := BitVec.ofNat 16 (v.toNat * 256 + s.dma.ddst.toNat % 256) })

/-- R157, R158, R162, R164, R170: the writes of the DMA control byte (which starts nothing and reads back as written), of the two latches
and of the keyboard column. -/
def Obligations.ControlAndLatchWrites : Prop :=
  (∀ (v : Byte) (s : State),
      exec (.wrDctl v) s = .next ((advance s).setDma { s.dma with dctl := v }) ∧
      exec (.wrDfill v) s = .next ((advance s).setDma { s.dma with dfill := v }) ∧
      exec (.wrDpage v) s = .next ((advance s).setDma { s.dma with dpage := v }) ∧
      exec (.wrKcol v) s = .next ((advance s).setSys { s.sys with kcol := BitVec.ofNat 4 (v.toNat % 16) })) ∧
    ∀ (v : Byte) (s : State), ∃ t u, exec (.wrDctl v) s = .next t ∧ exec .rdDctl t = .next u ∧ u.readsOut = s.readsOut ++ [v]

/-- R166, R168: a bank write rebinds its window for the next access: 0 is ROM, read-only, 1 is cartridge RAM, anything else is open bus;
window 2 sees page 0 and window 3 page 1; accesses of the CPU and of the DMA engine see the new binding alike. -/
def Obligations.BankWritesRebind : Prop :=
  ∀ (v : Byte) (s : State),
    (∃ t, exec (.wrBank2 v) s = .next t ∧ t = (advance s).setSys { s.sys with bank2 := v } ∧ ∀ (off : BitVec 14) (b : Byte),
        exec (.rdMem2 off) t =
          .next (t.returned (if v = 0 then t.peek .rom off.toNat else if v = 1 then t.peek .cart off.toNat else 0xFF)) ∧
        exec (.wrMem2 off b) t = .next (if v = 1 then t.poke .cart off.toNat b else t) ∧
        t.dmaRead false (windowAddr 2 off) = (if v = 0 then t.peek .rom off.toNat else if v = 1 then t.peek .cart off.toNat else 0xFF) ∧
        t.dmaWrite false (windowAddr 2 off) b = if v = 1 then t.poke .cart off.toNat b else t) ∧
    ∃ t, exec (.wrBank3 v) s = .next t ∧ t = (advance s).setSys { s.sys with bank3 := v } ∧ ∀ (off : BitVec 14) (b : Byte),
      exec (.rdMem3 off) t =
        .next (t.returned
          (if v = 0 then t.peek .rom (16384 + off.toNat) else if v = 1 then t.peek .cart (16384 + off.toNat) else 0xFF)) ∧
      exec (.wrMem3 off b) t = .next (if v = 1 then t.poke .cart (16384 + off.toNat) b else t) ∧
      t.dmaRead false (windowAddr 3 off) =
        (if v = 0 then t.peek .rom (16384 + off.toNat) else if v = 1 then t.peek .cart (16384 + off.toNat) else 0xFF) ∧
      t.dmaWrite false (windowAddr 3 off) b = if v = 1 then t.poke .cart (16384 + off.toNat) b else t

/-- R172, R174, R176: the writes that are discarded; the ticks due still run. -/
def Obligations.DiscardedWrites : Prop :=
  ∀ (v : Byte) (s : State) (m : BitVec 4) (n : BitVec 1),
    exec (.wrKdata v) s = .next (advance s) ∧
    exec (.wrAudio m v) s = .next (advance s) ∧
    exec (.wrUnmappedCE n v) s = .next (advance s) ∧
    exec (.wrUnmappedD6 n v) s = .next (advance s) ∧
    exec (.wrUnmappedDE n v) s = .next (advance s) ∧
    exec (.wrUnmappedF0 m v) s = .next (advance s)

/-! ### Memory accesses -/

/-- R56 to R58: reads and writes of the four windows; a write stores one byte where the window is writable, otherwise none, and nothing
else changes. -/
def Obligations.BankWindowAccesses : Prop :=
  ∀ (off : BitVec 14) (v : Byte) (s : State),
    exec (.rdMem0 off) s = .next (s.returned (s.peek .ram0 off.toNat)) ∧
    exec (.rdMem1 off) s = .next (s.returned (s.peek .ram1 off.toNat)) ∧
    exec (.rdMem2 off) s =
      .next (s.returned
        (if s.sys.bank2 = 0 then s.peek .rom off.toNat else if s.sys.bank2 = 1 then s.peek .cart off.toNat else 0xFF)) ∧
    exec (.rdMem3 off) s =
      .next (s.returned
        (if s.sys.bank3 = 0 then s.peek .rom (16384 + off.toNat) else if s.sys.bank3 = 1 then s.peek .cart (16384 + off.toNat)
        else 0xFF)) ∧
    (∃ t, exec (.wrMem0 off v) s = .next t ∧ t = s.setMem t.mem ∧ StoresOnly (some (.ram0, off.toNat)) v s t) ∧
    (∃ t, exec (.wrMem1 off v) s = .next t ∧ t = s.setMem t.mem ∧ StoresOnly (some (.ram1, off.toNat)) v s t) ∧
    (∃ t, exec (.wrMem2 off v) s = .next t ∧ t = s.setMem t.mem ∧
      StoresOnly (if s.sys.bank2 = 1 then some (.cart, off.toNat) else none) v s t) ∧
    ∃ t, exec (.wrMem3 off v) s = .next t ∧ t = s.setMem t.mem ∧
      StoresOnly (if s.sys.bank3 = 1 then some (.cart, 16384 + off.toNat) else none) v s t

/-- R115: outside the I/O window a write followed by a read at the same address returns the value written if the window's write-enable
flag is set, otherwise the prior value. -/
def Obligations.WriteThenRead : Prop :=
  ∀ (a : Addr) (v : Byte) (s : State), ¬(0x00C0 ≤ a.toNat ∧ a.toNat ≤ 0x00FF) → ∃ t,
    exec (decodeWrite a v) s = .next t ∧
      exec (decodeRead a) t = .next (t.returned (if (s.bind (addrWindow a)).writable then v else s.bankRead a))

/-! ### Transfers -/

/-- R71, R182 to R187, R190, R191, R197: one step of the copy, fill and alternating-fill modes: its registers, its store, its cycles, and
the ticks of the write cycle after the store. -/
def Obligations.CopyAndFillSteps : Prop :=
  ∀ (f : DmaFlags) (i : Nat) (s : State), TimingInv s →
    (∃ t, exec (.dmaCopy f i) s = .next t ∧
      StepDone (f.srcv || f.dstv)
        { s.dma with
          dsrc := s.dma.dsrc + BitVec.ofInt 16 (transferIncrement s.video.ntsize f)
          ddst := s.dma.ddst + BitVec.ofInt 16 (transferIncrement s.video.ntsize f)
          drun := s.dma.drun - 1
          dfill := s.dmaRead f.srcv s.dma.dsrc }
        (s.dmaCell f.dstv s.dma.ddst) (s.dmaRead f.srcv s.dma.dsrc) s t) ∧
    (∃ t, exec (.dmaFill f i) s = .next t ∧
      StepDone f.dstv
        { s.dma with
          ddst := s.dma.ddst + BitVec.ofInt 16 (transferIncrement s.video.ntsize f)
          drun := s.dma.drun - 1 }
        (s.dmaCell f.dstv s.dma.ddst) s.dma.dfill s t) ∧
    ∃ t, exec (.dmaAltfill f i) s = .next t ∧
      StepDone f.dstv
        { s.dma with
          ddst := s.dma.ddst + BitVec.ofInt 16 (transferIncrement s.video.ntsize f)
          drun := s.dma.drun - 1 }
        (s.dmaCell f.dstv s.dma.ddst) (if i % 2 = 0 then s.dma.dfill else s.dma.dpage) s t

/-- R192: one step of the masked mode writes only a byte that is not zero; a transfer whose source bytes are all zero leaves every memory
unchanged and still advances both counters by the full length. -/
def Obligations.MaskedTransfers : Prop :=
  (∀ (f : DmaFlags) (i : Nat) (s : State), TimingInv s → ∃ t, exec (.dmaMasked f i) s = .next t ∧
      StepDone (f.srcv || f.dstv)
        { s.dma with
          dsrc := s.dma.dsrc + BitVec.ofInt 16 (transferIncrement s.video.ntsize f)
          ddst := s.dma.ddst + BitVec.ofInt 16 (transferIncrement s.video.ntsize f)
          drun := s.dma.drun - 1
          dfill := s.dmaRead f.srcv s.dma.dsrc }
        (if s.dmaRead f.srcv s.dma.dsrc = 0 then none else s.dmaCell f.dstv s.dma.ddst) (s.dmaRead f.srcv s.dma.dsrc) s t) ∧
    ∀ (v : Byte) (s : State), TimingInv s → dmaModeOf s.dma.dctl = .masked →
      (∀ j < transferSteps v,
        s.dmaRead (dmaFlagsOf s.dma.dctl).srcv
          (s.dma.dsrc + BitVec.ofInt 16 (j * transferIncrement s.video.ntsize (dmaFlagsOf s.dma.dctl))) = 0) →
      ∃ t, exec (.wrDrun v) s = .next t ∧ t.mem = s.mem ∧
        t.dma.ddst = s.dma.ddst + BitVec.ofInt 16 (transferSteps v * transferIncrement s.video.ntsize (dmaFlagsOf s.dma.dctl)) ∧
        t.dma.dsrc = s.dma.dsrc + BitVec.ofInt 16 (transferSteps v * transferIncrement s.video.ntsize (dmaFlagsOf s.dma.dctl))

/-- R193: one step of the direct-pixel mode replaces one pixel, of 4 or 2 bits, of the destination byte and leaves its other pixels; the
old byte goes to the secondary latch. -/
def Obligations.DirectPixelSteps : Prop :=
  ∀ (f : DmaFlags) (i : Nat) (s : State) (bits sh : Nat) (ba : Addr), TimingInv s →
    bits = (if s.video.vctl.getLsbD 6 then 4 else 2) →
    sh = (if s.video.vctl.getLsbD 6 then (1 - s.dma.ddst.toNat % 2) * 4 else (3 - s.dma.ddst.toNat % 4) * 2) →
    ba = BitVec.ofNat 16 (if s.video.vctl.getLsbD 6 then s.dma.ddst.toNat / 2 else s.dma.ddst.toNat / 4) →
    ∃ t, exec (.dmaApa f i) s = .next t ∧
      StepDone (f.srcv || f.dstv)
        { s.dma with
          dsrc := s.dma.dsrc + BitVec.ofInt 16 (transferIncrement s.video.ntsize f)
          ddst := s.dma.ddst + BitVec.ofInt 16 (transferIncrement s.video.ntsize f)
          drun := s.dma.drun - 1
          dfill := s.dmaRead f.srcv s.dma.dsrc
          dpage := s.dmaRead f.dstv ba }
        (s.dmaCell f.dstv ba)
        (BitVec.ofNat 8
          ((s.dmaRead f.dstv ba).toNat - (s.dmaRead f.dstv ba).toNat / 2 ^ sh % 2 ^ bits * 2 ^ sh +
            (s.dmaRead f.srcv s.dma.dsrc).toNat % 2 ^ bits * 2 ^ sh))
        s t

/-- R194 to R196: one step of the palette, sprite and sprite-clear modes: no wait, the source always system memory, the palette index
modulo 64, a sprite index of 160 or more skipped, the sprite-clear stride 4 whatever the flags. -/
def Obligations.PaletteAndSpriteSteps : Prop :=
  ∀ (f : DmaFlags) (i : Nat) (s : State), TimingInv s →
    (∃ t, exec (.dmaPal f i) s = .next t ∧
      StepDone false
        { s.dma with
          dsrc := s.dma.dsrc + BitVec.ofInt 16 (transferIncrement s.video.ntsize f)
          ddst := s.dma.ddst + BitVec.ofInt 16 (transferIncrement s.video.ntsize f)
          drun := s.dma.drun - 1
          dfill := s.bankRead s.dma.dsrc }
        (some (.pal, s.dma.ddst.toNat % 64)) (s.bankRead s.dma.dsrc) s t) ∧
    (∃ t, exec (.dmaSpr f i) s = .next t ∧
      StepDone false
        { s.dma with
          dsrc := s.dma.dsrc + BitVec.ofInt 16 (transferIncrement s.video.ntsize f)
          ddst := s.dma.ddst + BitVec.ofInt 16 (transferIncrement s.video.ntsize f)
          drun := s.dma.drun - 1
          dfill := s.bankRead s.dma.dsrc }
        (if s.dma.ddst.toNat < 160 then some (.spr, s.dma.ddst.toNat) else none) (s.bankRead s.dma.dsrc) s t) ∧
    ∃ t, exec (.dmaSprclr f i) s = .next t ∧
      StepDone false
        { s.dma with
          ddst := s.dma.ddst + 4
          drun := s.dma.drun - 1 }
        (if s.dma.ddst.toNat < 160 then some (.spr, s.dma.ddst.toNat) else none) 0xFF s t

/-- R160, R181, and R198, R199, which the spec marks as derived: a write of `DRUN` runs the whole transfer: `n` steps, 256 for 0, one after
another, each of two cycles and a wait; a wait is the cycles in which the port is busy, none where no step touches VRAM. The run count
ends at 0, the control byte stands, the counters have moved by the full length; the data latch holds the byte that the last step read,
and after the direct-pixel mode the secondary latch the destination byte as the last step found it; the latches that the mode does not
load stand; the engine is caught up, its counters, its status flag and the request where that many cycles take them. -/
def Obligations.TransferEnd : Prop :=
  ∀ (v : Byte) (s : State) (m : DmaMode) (f : DmaFlags), TimingInv s → m = dmaModeOf s.dma.dctl → f = dmaFlagsOf s.dma.dctl →
    ∃ (t u : State) (k : Nat → Nat) (w : Nat), exec (.wrDrun v) s = .next t ∧
      w = waitsBefore k (transferSteps v) ∧ TransferWaits (transferTouchesVram m f) (transferSteps v) k (advance s) ∧
      t.cpuCycles = s.cpuCycles + 2 * transferSteps v + w ∧ EngineAfter (2 * transferSteps v + w) (advance s) t ∧ t.caughtUp ∧
      execAll ((List.range (transferSteps v - 1)).map (dmaInstr m f)) ((advance s).setDma { s.dma with drun := v }) = some u ∧
      exec (dmaInstr m f (transferSteps v - 1)) u = .next t ∧
      u.dma.dsrc = s.dma.dsrc +
        BitVec.ofInt 16 (if transferReadsSource m then (transferSteps v - 1 : Nat) * transferIncrement s.video.ntsize f else 0) ∧
      u.dma.ddst = s.dma.ddst +
        BitVec.ofInt 16
          (if m = .sprclr then 4 * (transferSteps v - 1 : Nat) else (transferSteps v - 1 : Nat) * transferIncrement s.video.ntsize f) ∧
      t.dma.drun = 0 ∧ t.dma.dctl = s.dma.dctl ∧
      t.dma.dsrc = s.dma.dsrc +
        BitVec.ofInt 16 (if transferReadsSource m then transferSteps v * transferIncrement s.video.ntsize f else 0) ∧
      t.dma.ddst = s.dma.ddst +
        BitVec.ofInt 16 (if m = .sprclr then 4 * transferSteps v else transferSteps v * transferIncrement s.video.ntsize f) ∧
      t.dma.dfill =
        (if transferReadsSource m then if m = .pal ∨ m = .spr then u.bankRead u.dma.dsrc else u.dmaRead f.srcv u.dma.dsrc
        else s.dma.dfill) ∧
      t.dma.dpage =
        (if m = .apa then
          u.dmaRead f.dstv (BitVec.ofNat 16 (if s.video.vctl.getLsbD 6 then u.dma.ddst.toNat / 2 else u.dma.ddst.toNat / 4))
        else s.dma.dpage) ∧
      t.mem.rom = s.mem.rom ∧ t.sys = s.sys ∧ t.readsOut = s.readsOut ∧ t.trace = s.trace ∧
      t.video = { s.video with vsta := t.video.vsta }

/-- R191: a forward fill of VRAM writes the latched byte to every byte of the block, which wraps at 16384, and to no other byte. -/
def Obligations.FillTransfer : Prop :=
  ∀ (v : Byte) (s : State), TimingInv s → s.dma.dctl &&& 0x77 = 0x41 → ∃ t, exec (.wrDrun v) s = .next t ∧
    ∀ (r : Region) (a : Nat), t.peek r a =
      if r = .vram ∧ a < 16384 ∧ (a + 65536 - s.dma.ddst.toNat) % 16384 < transferSteps v then s.dma.dfill else s.peek r a

/-- R190: a forward copy from system memory to VRAM writes each source byte to its place and no other byte; the data latch holds the
last byte copied. -/
def Obligations.CopyTransfer : Prop :=
  ∀ (v : Byte) (s : State), TimingInv s → s.dma.dctl &&& 0xF7 = 0x40 → ∃ t, exec (.wrDrun v) s = .next t ∧
    t.dma.dfill = s.bankRead (s.dma.dsrc + BitVec.ofNat 16 (transferSteps v - 1)) ∧
    ∀ (r : Region) (a : Nat), t.peek r a =
      if r = .vram ∧ a < 16384 ∧ (a + 65536 - s.dma.ddst.toNat) % 16384 < transferSteps v then
        s.bankRead (s.dma.dsrc + BitVec.ofNat 16 ((a + 65536 - s.dma.ddst.toNat) % 16384))
      else s.peek r a

/-- R313: the wait for the VRAM port lasts while it is busy and ends within 75 cycles. -/
def Obligations.ArbiterWaitIsBounded : Prop :=
  ∀ s : State, TimingInv s → s.caughtUp → ∃ k ≤ 75,
    arbitrate .perStep true 0 s = some (cycle^[k] s) ∧ (cycle^[k] s).vramBusy = false ∧ ∀ j < k, (cycle^[j] s).vramBusy = true

/-- R185 (log 12): the two interlock policies differ only in that `perBlock` asks before step 0 alone; a step that does not touch VRAM, or
finds the port free, never waits; the design of record asks before every step. -/
def Obligations.InterlockPolicies : Prop :=
  (∀ (touches : Bool) (i : Nat) (s : State),
      arbitrate .perBlock touches i s = if i = 0 then arbitrate .perStep touches i s else some s) ∧
    (∀ (pol : Interlock) (i : Nat) (s : State), arbitrate pol false i s = some s) ∧
    (∀ (pol : Interlock) (touches : Bool) (i : Nat) (s : State), s.vramBusy = false → arbitrate pol touches i s = some s) ∧
    Config.dmaInterlock = .perStep

/-! ### Ticks -/

/-- R260 to R267: the four fetch slots read VRAM at the name-table and graphics addresses while the scheduler owns the port, and hold
their latches otherwise; the odd slots read nothing. -/
def Obligations.FetchSlots : Prop :=
  ∀ (s : State) (nt gfx : Nat),
    nt = (s.video.ntbase.toNat * 64 + 2 * (s.tim.vtile.toNat * (32 * 2 ^ (s.video.ntsize.toNat % 4)) + s.tim.htile.toNat)) % 16384 →
    gfx = (if s.video.vctl.getLsbD 2 then 0 else s.pipe.attrF.toNat / 8 % 2) * 4096 + s.pipe.name.toNat * 16 + s.tim.vsub.toNat * 2 →
    ((s.tim.hbusy = true ∧ s.tim.vbusy = true) →
      exec .fetchName s = .next (s.setPipe { s.pipe with name := s.peek .vram nt }) ∧
      exec .fetchAttr s = .next (s.setPipe { s.pipe with attrF := s.peek .vram ((nt + 1) % 16384) }) ∧
      exec .fetchGfx0 s = .next (s.setPipe { s.pipe with gfx0 := s.peek .vram gfx }) ∧
      exec .fetchGfx1 s = .next (s.setPipe { s.pipe with gfx1 := s.peek .vram (gfx + 1) })) ∧
    (¬(s.tim.hbusy = true ∧ s.tim.vbusy = true) →
      exec .fetchName s = .next s ∧ exec .fetchAttr s = .next s ∧ exec .fetchGfx0 s = .next s ∧ exec .fetchGfx1 s = .next s) ∧
    ∀ p, exec (.fetchIdle p) s = .next s

/-- R275, R276, R277, and the order of R222: the two loads; the shift and load at each phase; which slot the fetch of each phase is; and
that a tick fetches, shifts and loads, then latches the pixel, all at the phase of its start, and leaves the latches so, but for the tick
that opens the early window, which empties them (R232). -/
def Obligations.ShiftAndLoad : Prop :=
  (∀ s : State,
    exec .loadShiftLo s =
      .next (s.setPipe { s.pipe with sr := BitVec.ofNat 16 (s.pipe.sr.toNat / 256 * 256 + s.pipe.gfx0.toNat) }) ∧
    exec .loadShiftHi s =
      .next (s.setPipe
        { s.pipe with sr := BitVec.ofNat 16 (s.pipe.sr.toNat / 256 * 256 + s.pipe.gfx1.toNat), attrA := s.pipe.attrF }) ∧
    ∀ p : BitVec 3, shiftLoad p s = s.setPipe
      { s.pipe with
        sr := BitVec.ofNat 16
          (if p = 4 then s.pipe.sr.toNat * 4 % 65536 / 256 * 256 + s.pipe.gfx0.toNat
          else if p = 0 then s.pipe.sr.toNat * 4 % 65536 / 256 * 256 + s.pipe.gfx1.toNat else s.pipe.sr.toNat * 4 % 65536)
        attrA := if p = 0 then s.pipe.attrF else s.pipe.attrA }) ∧
    (∀ (p : BitVec 3) (s : State), exec (decodeFetch p) s = .next (fetch p s) ∧
      decodeFetch p =
        if p = 0 then .fetchName else if p = 2 then .fetchAttr else if p = 4 then .fetchGfx0 else if p = 6 then .fetchGfx1
        else .fetchIdle p) ∧
    ∀ s : State, (tick s).pipe =
      if s.tim.hcount = 415 then { name := 0, attrF := 0, attrA := 0, gfx0 := 0, gfx1 := 0, sr := 0, pix := 0 }
      else (latchPixel s.tim.hsub (shiftLoad s.tim.hsub (fetch s.tim.hsub s))).pipe

/-- R278, R279, R280, R282: when and what the pixel latch takes, the palette index of a pixel, and the colour of a palette byte. -/
def Obligations.PixelsAndColours : Prop :=
  (∀ (p : BitVec 3) (s : State), latchPixel p s = s.setPipe
      { s.pipe with
        pix :=
          if s.video.vctl.getLsbD 6 then
            if p.toNat % 2 = 0 then BitVec.ofNat 4 (s.pipe.sr.toNat / 4096) else s.pipe.pix
          else BitVec.ofNat 4 (s.pipe.sr.toNat / 16384) }) ∧
    (∀ s : State, s.palIndex.toNat =
      if s.video.vctl.getLsbD 2 then
        if s.pipe.pix.toNat % 2 = 1 then s.pipe.attrA.toNat / 16 else s.pipe.attrA.toNat % 16
      else if s.video.vctl.getLsbD 6 then s.pipe.attrA.toNat % 4 * 16 + s.pipe.pix.toNat
      else s.pipe.attrA.toNat % 8 * 4 + s.pipe.pix.toNat % 4) ∧
    ∀ b : Byte, (decodeColour b).toNat =
      0xFF000000 + (64 * (b.toNat / 16 % 4) + 21 * (b.toNat / 64)) * 65536 + (64 * (b.toNat / 4 % 4) + 21 * (b.toNat / 64)) * 256 +
        (64 * (b.toNat % 4) + 21 * (b.toNat / 64))

/-- R281, R283, R284: a visible tick writes the colour of its pixel at row 24 + line, column 32 + tick, and no other pixel; any other
tick writes none. -/
def Obligations.VisibleTicksDrawOnePixel : Prop :=
  ∀ s : State, EngineInv s → Frame.wf s.raster.fb →
    ((s.tim.hcount < 320 ∧ s.tim.vcount < 240) → ∀ row col, row < 288 → col < 384 →
      fbRead (tick s).raster.fb row col =
        if row = 24 + s.tim.vcount ∧ col = 32 + s.tim.hcount then
          decodeColour
            (s.peek .pal (latchPixel s.tim.hsub (shiftLoad s.tim.hsub (fetch s.tim.hsub s))).palIndex.toNat)
        else fbRead s.raster.fb row col) ∧
    (¬(s.tim.hcount < 320 ∧ s.tim.vcount < 240) → (tick s).raster.fb = s.raster.fb)

/-- R343, R242: the early window of line 261 empties the pipeline and nothing is fetched in it, so on line 0 the first 8 visible pixels,
row 24, columns 32 to 39, are the colour of palette entry 0, in every mode (the frame wrap is 17 ticks after the tick of index 415). -/
def Obligations.LineZeroLeftEdge : Prop :=
  ∀ s : State, EngineInv s → s.memWf → s.tim.vcount = 261 → s.tim.hcount = 415 →
    (ticks 17 s).tim.vcount = 0 ∧ (ticks 17 s).tim.hcount = 0 ∧
      ∀ j < 8, fbRead (ticks 25 s).raster.fb 24 (32 + j) = decodeColour (s.peek .pal 0)

/-- R229 to R232: on every line, the tick that brings the horizontal count to 416 advances the pixel row and on its wrap the tile row,
reloads the tile column from `SCRH`, returns the column cursor, opens the early window and zeroes the pipeline latches. -/
def Obligations.EarlyWindow : Prop :=
  ∀ s : State, s.tim.hcount = 415 →
    (tick s).tim.vsub = s.tim.vsub + 1 ∧
      (tick s).tim.vtile =
        (if s.tim.vsub = 7 then BitVec.ofNat 8 ((s.tim.vtile.toNat + 1) % (32 * 2 ^ (s.video.ntsize.toNat / 4 % 4))) else s.tim.vtile) ∧
      (tick s).tim.htile = BitVec.ofNat 8 (s.video.scrh.toNat % (32 * 2 ^ (s.video.ntsize.toNat % 4))) ∧
      (tick s).raster.col = 32 ∧ (tick s).tim.hbusy = true ∧
      (tick s).pipe = { name := 0, attrF := 0, attrA := 0, gfx0 := 0, gfx1 := 0, sr := 0, pix := 0 } ∧
      (tick s).tim.hcount = 416 ∧ (tick s).tim.vcount = s.tim.vcount ∧ (tick s).mem = s.mem

/-- R227 to R232, R238, R240 to R242: the actions of the thresholds, each by itself. -/
def Obligations.ThresholdActions : Prop :=
  ∀ s : State,
    exec .htHVisEnd s = .next (s.setTim { s.tim with hborder := true, hblank := true, hbusy := false }) ∧
    exec .htHSyncStart s = .next s ∧ exec .htHSyncEnd s = .next s ∧
    exec .htHEarly1 s =
      .next (s.setTim
        { s.tim with
          vsub := s.tim.vsub + 1
          vtile := if s.tim.vsub + 1 = 0 then BitVec.ofNat 8 ((s.tim.vtile.toNat + 1) % s.ntHeight) else s.tim.vtile }) ∧
    exec .htHEarly2 s = .next (s.setTim { s.tim with htile := BitVec.ofNat 8 (s.video.scrh.toNat % s.ntWidth) }) ∧
    exec .htHEarly3 s = .next ((s.setRaster { s.raster with col := 32 }).setTim { s.tim with hbusy := true }) ∧
    exec .htHEarly4 s = .next (s.setPipe { name := 0, attrF := 0, attrA := 0, gfx0 := 0, gfx1 := 0, sr := 0, pix := 0 }) ∧
    exec .vtVVisEnd s =
      .next ((s.setTim { s.tim with vborder := true, vblank := true, vbusy := false }).setFramesOut (s.framesOut ++ [s.raster.fb])) ∧
    exec .vtVSyncStart s =
      .next ((s.setVideo { s.video with vsta := s.video.vsta ||| 1 }).setIrq (s.irq || s.video.vena.getLsbD 0)) ∧
    exec .vtVSyncEnd s = .next s ∧
    exec .vtVTotal s =
      .next ((s.setRaster { s.raster with row := 24, col := 32 }).setTim
        { s.tim with
          vcount := 0
          vborder := false
          vblank := false
          vbusy := true
          vtile := BitVec.ofNat 8 (s.video.scrv.toNat % s.ntHeight)
          vsub := s.video.scrvf })

/-- R234, R235, R238, R240, R242, R309: the line end: the horizontal counters and latches, the row cursor, the line counter, and in that
order the vertical thresholds with all they do; nothing else changes. And R223, R226, R227, R231, R305, R286 of every tick: the counters,
the latches and the row cursor; the flag is set, and the request raised if it is enabled at that instant, by the tick of index 431 of
line 242 alone; the framebuffer as that tick leaves it is handed out by the tick of index 431 of line 239 alone (kept as log 8 says). -/
def Obligations.LineEnd : Prop :=
  (∀ s : State, ∃ t, exec .htHTotal s = .next t ∧
    t.tim.hcount = 0 ∧ t.tim.hsub = 0 ∧ t.tim.hborder = false ∧ t.tim.hblank = false ∧ t.tim.hbusy = s.tim.hbusy ∧
    t.tim.htile = s.tim.htile ∧
    t.tim.vcount = (if s.tim.vcount + 1 = 262 then 0 else s.tim.vcount + 1) ∧
    t.tim.vborder = (if s.tim.vcount + 1 = 240 then true else if s.tim.vcount + 1 = 262 then false else s.tim.vborder) ∧
    t.tim.vblank = (if s.tim.vcount + 1 = 240 then true else if s.tim.vcount + 1 = 262 then false else s.tim.vblank) ∧
    t.tim.vbusy = (if s.tim.vcount + 1 = 240 then false else if s.tim.vcount + 1 = 262 then true else s.tim.vbusy) ∧
    t.tim.vtile =
      (if s.tim.vcount + 1 = 262 then BitVec.ofNat 8 (s.video.scrv.toNat % (32 * 2 ^ (s.video.ntsize.toNat / 4 % 4))) else s.tim.vtile) ∧
    t.tim.vsub = (if s.tim.vcount + 1 = 262 then s.video.scrvf else s.tim.vsub) ∧
    t.raster = { s.raster with
      row := if s.tim.vcount + 1 = 262 then 24 else min (s.raster.row + 1) 287
      col := if s.tim.vcount + 1 = 262 then 32 else s.raster.col } ∧
    t.framesOut = (if s.tim.vcount + 1 = 240 then s.framesOut ++ [s.raster.fb] else s.framesOut) ∧
    t.video = { s.video with vsta := if s.tim.vcount + 1 = 243 then s.video.vsta ||| 1 else s.video.vsta } ∧
    t.irq = (s.irq || (decide (s.tim.vcount + 1 = 243) && s.video.vena.getLsbD 0)) ∧
    t.cpuCycles = s.cpuCycles ∧ t.pixelClock = s.pixelClock ∧ t.mem = s.mem ∧ t.dma = s.dma ∧ t.sys = s.sys ∧ t.pipe = s.pipe ∧
    t.readsOut = s.readsOut ∧ t.trace = s.trace) ∧
    ∀ s : State,
      (tick s).tim.hcount = (if s.tim.hcount = 431 then 0 else s.tim.hcount + 1) ∧
      (tick s).tim.vcount = (if s.tim.hcount = 431 then if s.tim.vcount = 261 then 0 else s.tim.vcount + 1 else s.tim.vcount) ∧
      (tick s).tim.hborder = (if s.tim.hcount = 431 then false else if s.tim.hcount = 319 then true else s.tim.hborder) ∧
      (tick s).tim.hblank = (if s.tim.hcount = 431 then false else if s.tim.hcount = 319 then true else s.tim.hblank) ∧
      (tick s).tim.hbusy = (if s.tim.hcount = 319 then false else if s.tim.hcount = 415 then true else s.tim.hbusy) ∧
      (tick s).tim.vborder =
        (if s.tim.hcount = 431 ∧ s.tim.vcount = 239 then true else if s.tim.hcount = 431 ∧ s.tim.vcount = 261 then false
        else s.tim.vborder) ∧
      (tick s).tim.vblank =
        (if s.tim.hcount = 431 ∧ s.tim.vcount = 239 then true else if s.tim.hcount = 431 ∧ s.tim.vcount = 261 then false
        else s.tim.vblank) ∧
      (tick s).tim.vbusy =
        (if s.tim.hcount = 431 ∧ s.tim.vcount = 239 then false else if s.tim.hcount = 431 ∧ s.tim.vcount = 261 then true
        else s.tim.vbusy) ∧
      (tick s).raster.row =
        (if s.tim.hcount = 431 then if s.tim.vcount = 261 then 24 else min (s.raster.row + 1) 287 else s.raster.row) ∧
      (tick s).video =
        { s.video with vsta := if s.tim.hcount = 431 ∧ s.tim.vcount = 242 then s.video.vsta ||| 1 else s.video.vsta } ∧
      (tick s).irq = (s.irq || (decide (s.tim.hcount = 431 ∧ s.tim.vcount = 242) && s.video.vena.getLsbD 0)) ∧
      (tick s).framesOut =
        if s.tim.hcount = 431 ∧ s.tim.vcount = 239 then s.framesOut ++ [(tick s).raster.fb] else s.framesOut

/-- R289: the bits of `VCTL` other than `ATTR16` and `BPP4` are not read by any step of the tick. -/
def Obligations.UnreadControlBits : Prop :=
  ∀ (s : State) (v : Byte) (n : Nat), v.getLsbD 2 = s.video.vctl.getLsbD 2 → v.getLsbD 6 = s.video.vctl.getLsbD 6 →
    ticks n (s.setVideo { s.video with vctl := v }) = (ticks n s).setVideo { (ticks n s).video with vctl := v }

/-- R113, R132, R15: no tick reads system memory, sprite memory or the horizontal fine scroll. -/
def Obligations.TicksReadNoSystemMemory : Prop :=
  (∀ (s : State) (n a : Nat) (r : Region) (v : Byte), r ≠ .vram → r ≠ .pal → ticks n (s.poke r a v) = (ticks n s).poke r a v) ∧
    ∀ (s : State) (n : Nat) (x : BitVec 3),
      ticks n (s.setVideo { s.video with scrhf := x }) = (ticks n s).setVideo { (ticks n s).video with scrhf := x }

/-- R222, R260, R262 to R267, R275 to R279: every latch of the pipeline after a tick that does not open the early window, by the phase
of its start: what the slot of that phase reads, nothing while the port is not the scheduler's, the shift and the load of the byte as
just fetched, the pixel from the register as just shifted and loaded. -/
def Obligations.TickMovesThePipeline : Prop :=
  ∀ (s : State) (nt gfx : Nat), s.tim.hcount ≠ 415 →
    nt = (s.video.ntbase.toNat * 64 + 2 * (s.tim.vtile.toNat * (32 * 2 ^ (s.video.ntsize.toNat % 4)) + s.tim.htile.toNat)) % 16384 →
    gfx = (if s.video.vctl.getLsbD 2 then 0 else s.pipe.attrF.toNat / 8 % 2) * 4096 + s.pipe.name.toNat * 16 + s.tim.vsub.toNat * 2 →
    (tick s).pipe.name = (if s.vramBusy = true ∧ s.tim.hsub = 0 then s.peek .vram nt else s.pipe.name) ∧
      (tick s).pipe.attrF = (if s.vramBusy = true ∧ s.tim.hsub = 2 then s.peek .vram ((nt + 1) % 16384) else s.pipe.attrF) ∧
      (tick s).pipe.gfx0 = (if s.vramBusy = true ∧ s.tim.hsub = 4 then s.peek .vram gfx else s.pipe.gfx0) ∧
      (tick s).pipe.gfx1 = (if s.vramBusy = true ∧ s.tim.hsub = 6 then s.peek .vram (gfx + 1) else s.pipe.gfx1) ∧
      (tick s).pipe.attrA = (if s.tim.hsub = 0 then s.pipe.attrF else s.pipe.attrA) ∧
      (tick s).pipe.sr = BitVec.ofNat 16
        (if s.tim.hsub = 4 then s.pipe.sr.toNat * 4 % 65536 / 256 * 256 + (tick s).pipe.gfx0.toNat
        else if s.tim.hsub = 0 then s.pipe.sr.toNat * 4 % 65536 / 256 * 256 + s.pipe.gfx1.toNat else s.pipe.sr.toNat * 4 % 65536) ∧
      (tick s).pipe.pix =
        if s.video.vctl.getLsbD 6 then
          if s.tim.hsub.toNat % 2 = 0 then BitVec.ofNat 4 ((tick s).pipe.sr.toNat / 4096) else s.pipe.pix
        else BitVec.ofNat 4 ((tick s).pipe.sr.toNat / 16384)
end

