-- ==== Sys2Proof/Laws/State.lean ====
section
/-! SUPPORT. One lemma per field of State per update of it, so that no proof unfolds a record update. -/

namespace Sys2Proof.Machine.State

section setClocks
variable (s : State) (c p : Nat)
@[simp] theorem setClocks_cpuCycles : (s.setClocks c p).cpuCycles = c := rfl
@[simp] theorem setClocks_pixelClock : (s.setClocks c p).pixelClock = p := rfl
@[simp] theorem setClocks_mem : (s.setClocks c p).mem = s.mem := rfl
@[simp] theorem setClocks_video : (s.setClocks c p).video = s.video := rfl
@[simp] theorem setClocks_dma : (s.setClocks c p).dma = s.dma := rfl
@[simp] theorem setClocks_sys : (s.setClocks c p).sys = s.sys := rfl
@[simp] theorem setClocks_irq : (s.setClocks c p).irq = s.irq := rfl
@[simp] theorem setClocks_tim : (s.setClocks c p).tim = s.tim := rfl
@[simp] theorem setClocks_pipe : (s.setClocks c p).pipe = s.pipe := rfl
@[simp] theorem setClocks_raster : (s.setClocks c p).raster = s.raster := rfl
@[simp] theorem setClocks_framesOut : (s.setClocks c p).framesOut = s.framesOut := rfl
@[simp] theorem setClocks_readsOut : (s.setClocks c p).readsOut = s.readsOut := rfl
@[simp] theorem setClocks_trace : (s.setClocks c p).trace = s.trace := rfl
end setClocks

section setMem
variable (s : State) (x : Memories)
@[simp] theorem setMem_cpuCycles : (s.setMem x).cpuCycles = s.cpuCycles := rfl
@[simp] theorem setMem_pixelClock : (s.setMem x).pixelClock = s.pixelClock := rfl
@[simp] theorem setMem_mem : (s.setMem x).mem = x := rfl
@[simp] theorem setMem_video : (s.setMem x).video = s.video := rfl
@[simp] theorem setMem_dma : (s.setMem x).dma = s.dma := rfl
@[simp] theorem setMem_sys : (s.setMem x).sys = s.sys := rfl
@[simp] theorem setMem_irq : (s.setMem x).irq = s.irq := rfl
@[simp] theorem setMem_tim : (s.setMem x).tim = s.tim := rfl
@[simp] theorem setMem_pipe : (s.setMem x).pipe = s.pipe := rfl
@[simp] theorem setMem_raster : (s.setMem x).raster = s.raster := rfl
@[simp] theorem setMem_framesOut : (s.setMem x).framesOut = s.framesOut := rfl
@[simp] theorem setMem_readsOut : (s.setMem x).readsOut = s.readsOut := rfl
@[simp] theorem setMem_trace : (s.setMem x).trace = s.trace := rfl
end setMem

section setVideo
variable (s : State) (x : VideoRegs)
@[simp] theorem setVideo_cpuCycles : (s.setVideo x).cpuCycles = s.cpuCycles := rfl
@[simp] theorem setVideo_pixelClock : (s.setVideo x).pixelClock = s.pixelClock := rfl
@[simp] theorem setVideo_mem : (s.setVideo x).mem = s.mem := rfl
@[simp] theorem setVideo_video : (s.setVideo x).video = x := rfl
@[simp] theorem setVideo_dma : (s.setVideo x).dma = s.dma := rfl
@[simp] theorem setVideo_sys : (s.setVideo x).sys = s.sys := rfl
@[simp] theorem setVideo_irq : (s.setVideo x).irq = s.irq := rfl
@[simp] theorem setVideo_tim : (s.setVideo x).tim = s.tim := rfl
@[simp] theorem setVideo_pipe : (s.setVideo x).pipe = s.pipe := rfl
@[simp] theorem setVideo_raster : (s.setVideo x).raster = s.raster := rfl
@[simp] theorem setVideo_framesOut : (s.setVideo x).framesOut = s.framesOut := rfl
@[simp] theorem setVideo_readsOut : (s.setVideo x).readsOut = s.readsOut := rfl
@[simp] theorem setVideo_trace : (s.setVideo x).trace = s.trace := rfl
end setVideo

section setDma
variable (s : State) (x : DmaRegs)
@[simp] theorem setDma_cpuCycles : (s.setDma x).cpuCycles = s.cpuCycles := rfl
@[simp] theorem setDma_pixelClock : (s.setDma x).pixelClock = s.pixelClock := rfl
@[simp] theorem setDma_mem : (s.setDma x).mem = s.mem := rfl
@[simp] theorem setDma_video : (s.setDma x).video = s.video := rfl
@[simp] theorem setDma_dma : (s.setDma x).dma = x := rfl
@[simp] theorem setDma_sys : (s.setDma x).sys = s.sys := rfl
@[simp] theorem setDma_irq : (s.setDma x).irq = s.irq := rfl
@[simp] theorem setDma_tim : (s.setDma x).tim = s.tim := rfl
@[simp] theorem setDma_pipe : (s.setDma x).pipe = s.pipe := rfl
@[simp] theorem setDma_raster : (s.setDma x).raster = s.raster := rfl
@[simp] theorem setDma_framesOut : (s.setDma x).framesOut = s.framesOut := rfl
@[simp] theorem setDma_readsOut : (s.setDma x).readsOut = s.readsOut := rfl
@[simp] theorem setDma_trace : (s.setDma x).trace = s.trace := rfl
end setDma

section setSys
variable (s : State) (x : SysRegs)
@[simp] theorem setSys_cpuCycles : (s.setSys x).cpuCycles = s.cpuCycles := rfl
@[simp] theorem setSys_pixelClock : (s.setSys x).pixelClock = s.pixelClock := rfl
@[simp] theorem setSys_mem : (s.setSys x).mem = s.mem := rfl
@[simp] theorem setSys_video : (s.setSys x).video = s.video := rfl
@[simp] theorem setSys_dma : (s.setSys x).dma = s.dma := rfl
@[simp] theorem setSys_sys : (s.setSys x).sys = x := rfl
@[simp] theorem setSys_irq : (s.setSys x).irq = s.irq := rfl
@[simp] theorem setSys_tim : (s.setSys x).tim = s.tim := rfl
@[simp] theorem setSys_pipe : (s.setSys x).pipe = s.pipe := rfl
@[simp] theorem setSys_raster : (s.setSys x).raster = s.raster := rfl
@[simp] theorem setSys_framesOut : (s.setSys x).framesOut = s.framesOut := rfl
@[simp] theorem setSys_readsOut : (s.setSys x).readsOut = s.readsOut := rfl
@[simp] theorem setSys_trace : (s.setSys x).trace = s.trace := rfl
end setSys

section setIrq
variable (s : State) (x : Bool)
@[simp] theorem setIrq_cpuCycles : (s.setIrq x).cpuCycles = s.cpuCycles := rfl
@[simp] theorem setIrq_pixelClock : (s.setIrq x).pixelClock = s.pixelClock := rfl
@[simp] theorem setIrq_mem : (s.setIrq x).mem = s.mem := rfl
@[simp] theorem setIrq_video : (s.setIrq x).video = s.video := rfl
@[simp] theorem setIrq_dma : (s.setIrq x).dma = s.dma := rfl
@[simp] theorem setIrq_sys : (s.setIrq x).sys = s.sys := rfl
@[simp] theorem setIrq_irq : (s.setIrq x).irq = x := rfl
@[simp] theorem setIrq_tim : (s.setIrq x).tim = s.tim := rfl
@[simp] theorem setIrq_pipe : (s.setIrq x).pipe = s.pipe := rfl
@[simp] theorem setIrq_raster : (s.setIrq x).raster = s.raster := rfl
@[simp] theorem setIrq_framesOut : (s.setIrq x).framesOut = s.framesOut := rfl
@[simp] theorem setIrq_readsOut : (s.setIrq x).readsOut = s.readsOut := rfl
@[simp] theorem setIrq_trace : (s.setIrq x).trace = s.trace := rfl
end setIrq

section setTim
variable (s : State) (x : Timing)
@[simp] theorem setTim_cpuCycles : (s.setTim x).cpuCycles = s.cpuCycles := rfl
@[simp] theorem setTim_pixelClock : (s.setTim x).pixelClock = s.pixelClock := rfl
@[simp] theorem setTim_mem : (s.setTim x).mem = s.mem := rfl
@[simp] theorem setTim_video : (s.setTim x).video = s.video := rfl
@[simp] theorem setTim_dma : (s.setTim x).dma = s.dma := rfl
@[simp] theorem setTim_sys : (s.setTim x).sys = s.sys := rfl
@[simp] theorem setTim_irq : (s.setTim x).irq = s.irq := rfl
@[simp] theorem setTim_tim : (s.setTim x).tim = x := rfl
@[simp] theorem setTim_pipe : (s.setTim x).pipe = s.pipe := rfl
@[simp] theorem setTim_raster : (s.setTim x).raster = s.raster := rfl
@[simp] theorem setTim_framesOut : (s.setTim x).framesOut = s.framesOut := rfl
@[simp] theorem setTim_readsOut : (s.setTim x).readsOut = s.readsOut := rfl
@[simp] theorem setTim_trace : (s.setTim x).trace = s.trace := rfl
end setTim

section setPipe
variable (s : State) (x : Pipeline)
@[simp] theorem setPipe_cpuCycles : (s.setPipe x).cpuCycles = s.cpuCycles := rfl
@[simp] theorem setPipe_pixelClock : (s.setPipe x).pixelClock = s.pixelClock := rfl
@[simp] theorem setPipe_mem : (s.setPipe x).mem = s.mem := rfl
@[simp] theorem setPipe_video : (s.setPipe x).video = s.video := rfl
@[simp] theorem setPipe_dma : (s.setPipe x).dma = s.dma := rfl
@[simp] theorem setPipe_sys : (s.setPipe x).sys = s.sys := rfl
@[simp] theorem setPipe_irq : (s.setPipe x).irq = s.irq := rfl
@[simp] theorem setPipe_tim : (s.setPipe x).tim = s.tim := rfl
@[simp] theorem setPipe_pipe : (s.setPipe x).pipe = x := rfl
@[simp] theorem setPipe_raster : (s.setPipe x).raster = s.raster := rfl
@[simp] theorem setPipe_framesOut : (s.setPipe x).framesOut = s.framesOut := rfl
@[simp] theorem setPipe_readsOut : (s.setPipe x).readsOut = s.readsOut := rfl
@[simp] theorem setPipe_trace : (s.setPipe x).trace = s.trace := rfl
end setPipe

section setRaster
variable (s : State) (x : Raster)
@[simp] theorem setRaster_cpuCycles : (s.setRaster x).cpuCycles = s.cpuCycles := rfl
@[simp] theorem setRaster_pixelClock : (s.setRaster x).pixelClock = s.pixelClock := rfl
@[simp] theorem setRaster_mem : (s.setRaster x).mem = s.mem := rfl
@[simp] theorem setRaster_video : (s.setRaster x).video = s.video := rfl
@[simp] theorem setRaster_dma : (s.setRaster x).dma = s.dma := rfl
@[simp] theorem setRaster_sys : (s.setRaster x).sys = s.sys := rfl
@[simp] theorem setRaster_irq : (s.setRaster x).irq = s.irq := rfl
@[simp] theorem setRaster_tim : (s.setRaster x).tim = s.tim := rfl
@[simp] theorem setRaster_pipe : (s.setRaster x).pipe = s.pipe := rfl
@[simp] theorem setRaster_raster : (s.setRaster x).raster = x := rfl
@[simp] theorem setRaster_framesOut : (s.setRaster x).framesOut = s.framesOut := rfl
@[simp] theorem setRaster_readsOut : (s.setRaster x).readsOut = s.readsOut := rfl
@[simp] theorem setRaster_trace : (s.setRaster x).trace = s.trace := rfl
end setRaster

section setFramesOut
variable (s : State) (x : List Frame)
@[simp] theorem setFramesOut_cpuCycles : (s.setFramesOut x).cpuCycles = s.cpuCycles := rfl
@[simp] theorem setFramesOut_pixelClock : (s.setFramesOut x).pixelClock = s.pixelClock := rfl
@[simp] theorem setFramesOut_mem : (s.setFramesOut x).mem = s.mem := rfl
@[simp] theorem setFramesOut_video : (s.setFramesOut x).video = s.video := rfl
@[simp] theorem setFramesOut_dma : (s.setFramesOut x).dma = s.dma := rfl
@[simp] theorem setFramesOut_sys : (s.setFramesOut x).sys = s.sys := rfl
@[simp] theorem setFramesOut_irq : (s.setFramesOut x).irq = s.irq := rfl
@[simp] theorem setFramesOut_tim : (s.setFramesOut x).tim = s.tim := rfl
@[simp] theorem setFramesOut_pipe : (s.setFramesOut x).pipe = s.pipe := rfl
@[simp] theorem setFramesOut_raster : (s.setFramesOut x).raster = s.raster := rfl
@[simp] theorem setFramesOut_framesOut : (s.setFramesOut x).framesOut = x := rfl
@[simp] theorem setFramesOut_readsOut : (s.setFramesOut x).readsOut = s.readsOut := rfl
@[simp] theorem setFramesOut_trace : (s.setFramesOut x).trace = s.trace := rfl
end setFramesOut

section setReadsOut
variable (s : State) (x : List Byte)
@[simp] theorem setReadsOut_cpuCycles : (s.setReadsOut x).cpuCycles = s.cpuCycles := rfl
@[simp] theorem setReadsOut_pixelClock : (s.setReadsOut x).pixelClock = s.pixelClock := rfl
@[simp] theorem setReadsOut_mem : (s.setReadsOut x).mem = s.mem := rfl
@[simp] theorem setReadsOut_video : (s.setReadsOut x).video = s.video := rfl
@[simp] theorem setReadsOut_dma : (s.setReadsOut x).dma = s.dma := rfl
@[simp] theorem setReadsOut_sys : (s.setReadsOut x).sys = s.sys := rfl
@[simp] theorem setReadsOut_irq : (s.setReadsOut x).irq = s.irq := rfl
@[simp] theorem setReadsOut_tim : (s.setReadsOut x).tim = s.tim := rfl
@[simp] theorem setReadsOut_pipe : (s.setReadsOut x).pipe = s.pipe := rfl
@[simp] theorem setReadsOut_raster : (s.setReadsOut x).raster = s.raster := rfl
@[simp] theorem setReadsOut_framesOut : (s.setReadsOut x).framesOut = s.framesOut := rfl
@[simp] theorem setReadsOut_readsOut : (s.setReadsOut x).readsOut = x := rfl
@[simp] theorem setReadsOut_trace : (s.setReadsOut x).trace = s.trace := rfl
end setReadsOut

section setTrace
variable (s : State) (x : List Selector)
@[simp] theorem setTrace_cpuCycles : (s.setTrace x).cpuCycles = s.cpuCycles := rfl
@[simp] theorem setTrace_pixelClock : (s.setTrace x).pixelClock = s.pixelClock := rfl
@[simp] theorem setTrace_mem : (s.setTrace x).mem = s.mem := rfl
@[simp] theorem setTrace_video : (s.setTrace x).video = s.video := rfl
@[simp] theorem setTrace_dma : (s.setTrace x).dma = s.dma := rfl
@[simp] theorem setTrace_sys : (s.setTrace x).sys = s.sys := rfl
@[simp] theorem setTrace_irq : (s.setTrace x).irq = s.irq := rfl
@[simp] theorem setTrace_tim : (s.setTrace x).tim = s.tim := rfl
@[simp] theorem setTrace_pipe : (s.setTrace x).pipe = s.pipe := rfl
@[simp] theorem setTrace_raster : (s.setTrace x).raster = s.raster := rfl
@[simp] theorem setTrace_framesOut : (s.setTrace x).framesOut = s.framesOut := rfl
@[simp] theorem setTrace_readsOut : (s.setTrace x).readsOut = s.readsOut := rfl
@[simp] theorem setTrace_trace : (s.setTrace x).trace = x := rfl
end setTrace

/-- Replacing a part by itself changes nothing. -/
@[simp] theorem setTrace_self (s : State) : s.setTrace s.trace = s := rfl
@[simp] theorem setVideo_self (s : State) : s.setVideo s.video = s := rfl
@[simp] theorem setMem_self (s : State) : s.setMem s.mem = s := rfl
@[simp] theorem setDma_self (s : State) : s.setDma s.dma = s := rfl
@[simp] theorem setClocks_self (s : State) : s.setClocks s.cpuCycles s.pixelClock = s := rfl
@[simp] theorem setTrace_setTrace (s : State) (x y : List Selector) : (s.setTrace x).setTrace y = s.setTrace y := rfl

end Sys2Proof.Machine.State
end

