-- ==== Sys2Proof/Laws/Cells.lean ====
section
/-! SUPPORT. Cell lists: what is read after a write, and that every operation keeps the canonical form. -/

namespace Sys2Proof.Machine

section Cells
variable {α : Type}

/-- A read at the written key gives the value written. -/
@[simp] theorem cellGet_cellPut_same (m : List (Nat × α)) (a : Nat) (v : α) : cellGet (cellPut m a v) a = some v := by
  induction m with
  | nil => simp [cellPut, cellGet]
  | cons c r ih =>
    obtain ⟨k, w⟩ := c
    unfold cellPut
    split
    · simp [cellGet]
    · split
      · simp [cellGet]
      · simp [cellGet, *]

/-- A write leaves every other key alone. -/
theorem cellGet_cellPut_other (m : List (Nat × α)) {a b : Nat} (v : α) (h : b ≠ a) :
    cellGet (cellPut m a v) b = cellGet m b := by
  induction m with
  | nil => simp [cellPut, cellGet, h]
  | cons c r ih =>
    obtain ⟨k, w⟩ := c
    unfold cellPut
    split
    · by_cases hb : b < a
      · have : b < k := by omega
        simp [cellGet, hb, this]
      · simp [cellGet, hb, h]
    · split
      · subst k; simp [cellGet, h]
      · simp [cellGet, ih]

/-- A read after a write, in one equation. -/
theorem cellGet_cellPut (m : List (Nat × α)) (a b : Nat) (v : α) :
    cellGet (cellPut m a v) b = if b = a then some v else cellGet m b := by
  split
  · subst b; simp
  · exact cellGet_cellPut_other m v ‹_›

/-- What a written list holds. -/
theorem mem_cellPut {m : List (Nat × α)} {a : Nat} {v : α} {c : Nat × α} (h : c ∈ cellPut m a v) :
    c = (a, v) ∨ c ∈ m := by
  induction m with
  | nil => simpa [cellPut] using h
  | cons d r ih =>
    obtain ⟨k, w⟩ := d
    unfold cellPut at h
    split at h
    · simpa using h
    · split at h
      · rcases List.mem_cons.mp h with h | h
        · exact .inl h
        · exact .inr (List.mem_cons_of_mem _ h)
      · rcases List.mem_cons.mp h with h | h
        · exact .inr (by simp [h])
        · rcases ih h with h | h
          · exact .inl h
          · exact .inr (List.mem_cons_of_mem _ h)

/-- What an erased list holds was held before. -/
theorem mem_cellErase {m : List (Nat × α)} {a : Nat} {c : Nat × α} (h : c ∈ cellErase m a) : c ∈ m := by
  induction m with
  | nil => simp [cellErase] at h
  | cons d r ih =>
    obtain ⟨k, w⟩ := d
    unfold cellErase at h
    split at h
    · exact h
    · split at h
      · exact List.mem_cons_of_mem _ h
      · rcases List.mem_cons.mp h with h | h
        · simp [h]
        · exact List.mem_cons_of_mem _ (ih h)

/-- A write keeps the keys rising. -/
theorem rising_cellPut {m : List (Nat × α)} (hm : Rising m) (a : Nat) (v : α) : Rising (cellPut m a v) := by
  induction m with
  | nil => simp [cellPut]
  | cons d r ih =>
    obtain ⟨k, w⟩ := d
    have hk := (List.pairwise_cons.mp hm).1
    have hr := (List.pairwise_cons.mp hm).2
    unfold cellPut
    split
    · refine List.pairwise_cons.mpr ⟨fun c hc => ?_, hm⟩
      rcases List.mem_cons.mp hc with rfl | hc
      · assumption
      · have := hk c hc
        simp only at this ⊢
        omega
    · split
      · subst k; exact List.pairwise_cons.mpr ⟨hk, hr⟩
      · refine List.pairwise_cons.mpr ⟨fun c hc => ?_, ih hr⟩
        rcases mem_cellPut hc with rfl | hc
        · simp only; omega
        · exact hk c hc

/-- Erasing keeps the keys rising. -/
theorem rising_cellErase {m : List (Nat × α)} (hm : Rising m) (a : Nat) : Rising (cellErase m a) := by
  induction m with
  | nil => simp [cellErase]
  | cons d r ih =>
    obtain ⟨k, w⟩ := d
    have hk := (List.pairwise_cons.mp hm).1
    have hr := (List.pairwise_cons.mp hm).2
    unfold cellErase
    split
    · exact hm
    · split
      · exact hr
      · exact List.pairwise_cons.mpr ⟨fun c hc => hk c (mem_cellErase hc), ih hr⟩

/-- Nothing is listed below the first key of a rising list. -/
theorem cellGet_of_lt_all {m : List (Nat × α)} {b : Nat} (h : ∀ c ∈ m, b < c.1) : cellGet m b = none := by
  cases m with
  | nil => rfl
  | cons d r =>
    obtain ⟨k, w⟩ := d
    have hb : b < k := h (k, w) (by simp)
    simp [cellGet, hb]

/-- A read after an erasure, in a list of rising keys. -/
theorem cellGet_cellErase {m : List (Nat × α)} (hm : Rising m) (a b : Nat) :
    cellGet (cellErase m a) b = if b = a then none else cellGet m b := by
  induction m with
  | nil => simp [cellErase, cellGet]
  | cons d r ih =>
    obtain ⟨k, w⟩ := d
    have hk := (List.pairwise_cons.mp hm).1
    have hr := (List.pairwise_cons.mp hm).2
    unfold cellErase
    split
    · by_cases hb : b = a
      · subst b; simp [cellGet, *]
      · simp [hb]
    · split
      · subst k
        by_cases hb : b = a
        · subst b; simp [cellGet_of_lt_all hk]
        · by_cases hlt : b < a
          · simp only [hb, if_false, cellGet, hlt, if_true]
            exact cellGet_of_lt_all fun c hc => lt_trans hlt (hk c hc)
          · simp [cellGet, hb, hlt]
      · by_cases hb : b = a
        · subst b; simp [cellGet, *]
        · simp only [cellGet, ih hr, hb, if_false]

end Cells

/-- A byte write keeps the canonical form of a memory. -/
theorem memory_wf_cellPut {size : Nat} {m : Memory} (h : Memory.wf size m) {a : Nat} (ha : a < size) (v : Byte) :
    Memory.wf size (cellPut m a v) := by
  refine ⟨rising_cellPut h.1 a v, fun c hc => ?_⟩
  rcases mem_cellPut hc with rfl | hc
  · exact ha
  · exact h.2 c hc

/-- A pixel write keeps the canonical form of a framebuffer. -/
theorem frame_wf_fbWrite {f : Frame} (h : Frame.wf f) {row col : Nat} (hr : row < Config.fbH) (hc : col < Config.fbW) (c : Pixel) :
    Frame.wf (fbWrite f row col c) := by
  unfold fbWrite
  split
  · exact ⟨rising_cellErase h.1 _, fun d hd => h.2 d (mem_cellErase hd)⟩
  · refine ⟨rising_cellPut h.1 _ c, fun d hd => ?_⟩
    rcases mem_cellPut hd with rfl | hd
    · refine ⟨?_, ‹_›⟩
      simp only [fbKey, Config.fbH, Config.fbW] at *
      omega
    · exact h.2 d hd

/-- A pixel read after a pixel write, in a canonical framebuffer. -/
theorem fbRead_fbWrite {f : Frame} (h : Frame.wf f) (row col row' col' : Nat) (c : Pixel) :
    fbRead (fbWrite f row col c) row' col' = if fbKey row' col' = fbKey row col then c else fbRead f row' col' := by
  unfold fbRead fbWrite
  by_cases hc : c = Config.fbInit
  · simp only [hc, if_true, cellGet_cellErase h.1]
    split <;> simp
  · simp only [hc, if_false, cellGet_cellPut]
    split <;> simp

end Sys2Proof.Machine
end

