-- ==== Sys2Proof/Laws/Memory.lean ====
section
/-! SUPPORT. The memories: what a byte write changes, what the banked accesses read and write, and that they keep the canonical form. -/

namespace Sys2Proof.Machine

open Sys2Proof.Config (Region)

@[simp] theorem Memories.get_put_same (m : Memories) (r : Region) (x : Memory) : (m.put r x).get r = x := by cases r <;> rfl

theorem Memories.get_put_other (m : Memories) {r q : Region} (x : Memory) (h : q ≠ r) : (m.put r x).get q = m.get q := by
  cases r <;> cases q <;> first | rfl | exact absurd rfl h

/-- A byte write changes the byte written and no other byte of any memory. -/
theorem State.peek_poke (s : State) (r q : Region) (a b : Nat) (v : Byte) :
    (s.poke r a v).peek q b = if q = r ∧ b = a then v else s.peek q b := by
  unfold State.peek State.poke
  by_cases hq : q = r
  · subst q
    simp only [State.setMem_mem, Memories.get_put_same, cellGet_cellPut, true_and]
    split <;> simp
  · simp [State.setMem_mem, Memories.get_put_other _ _ hq, hq]

/-! The fields a byte write leaves alone. -/
section PokeFields
variable (s : State) (r : Region) (a : Nat) (v : Byte)
@[simp] theorem State.poke_cpuCycles : (s.poke r a v).cpuCycles = s.cpuCycles := rfl
@[simp] theorem State.poke_pixelClock : (s.poke r a v).pixelClock = s.pixelClock := rfl
@[simp] theorem State.poke_video : (s.poke r a v).video = s.video := rfl
@[simp] theorem State.poke_dma : (s.poke r a v).dma = s.dma := rfl
@[simp] theorem State.poke_sys : (s.poke r a v).sys = s.sys := rfl
@[simp] theorem State.poke_irq : (s.poke r a v).irq = s.irq := rfl
@[simp] theorem State.poke_tim : (s.poke r a v).tim = s.tim := rfl
@[simp] theorem State.poke_pipe : (s.poke r a v).pipe = s.pipe := rfl
@[simp] theorem State.poke_raster : (s.poke r a v).raster = s.raster := rfl
@[simp] theorem State.poke_framesOut : (s.poke r a v).framesOut = s.framesOut := rfl
@[simp] theorem State.poke_readsOut : (s.poke r a v).readsOut = s.readsOut := rfl
@[simp] theorem State.poke_trace : (s.poke r a v).trace = s.trace := rfl
end PokeFields

/-- A byte write inside its region keeps every memory canonical. -/
theorem State.memWf_poke {s : State} (h : s.memWf) (r : Region) {a : Nat} (ha : a < regionSize r) (v : Byte) : (s.poke r a v).memWf := by
  refine ⟨fun q hq => ?_, h.2⟩
  by_cases hqr : q = r
  · subst q
    simpa [State.poke] using memory_wf_cellPut (h.1 r hq) ha v
  · simpa [State.poke, Memories.get_put_other _ _ hqr] using h.1 q hq

/-- A switchable window of page 0 or 1 is bound inside its region. -/
theorem bankCell_bindSwitched_lt {v : Byte} {p : Nat} {r : Region} (off : BitVec 14) (h : (bindSwitched v p).region = some r) :
    bankCell (bindSwitched v p) off < regionSize r := by
  have ho := off.isLt
  revert h
  unfold bindSwitched
  split
  · rintro h; cases h; simp only [bankCell, regionSize, Config.windowSize, Config.romPages] at *; omega
  · split
    · rintro h; cases h; simp only [bankCell, regionSize, Config.windowSize, Config.cartPages] at *; omega
    · intro h; simp at h

/-- Every bound window lies inside its region (R56). -/
theorem State.bankCell_lt {s : State} {w : BitVec 2} {r : Region} (off : BitVec 14) (h : (s.bind w).region = some r) :
    bankCell (s.bind w) off < regionSize r := by
  have ho := off.isLt
  unfold State.bind at *
  split at h
  · cases h; simp only [bankCell, regionSize, Config.windowSize]; omega
  · cases h; simp only [bankCell, regionSize, Config.windowSize]; omega
  · exact bankCell_bindSwitched_lt off h
  · exact bankCell_bindSwitched_lt off h

/-- All a banked write can do (R58): write the bound cell, where the window is writable, or nothing. -/
theorem State.bankWrite_cases (s : State) (a : Addr) (v : Byte) :
    (∃ r, (s.bind (addrWindow a)).region = some r ∧ (s.bind (addrWindow a)).writable = true ∧
        s.bankWrite a v = s.poke r (bankCell (s.bind (addrWindow a)) (addrOffset a)) v) ∨
      (((s.bind (addrWindow a)).region = none ∨ (s.bind (addrWindow a)).writable = false) ∧ s.bankWrite a v = s) := by
  cases hr : (s.bind (addrWindow a)).region with
  | none => exact .inr ⟨.inl rfl, by simp [State.bankWrite, hr]⟩
  | some r =>
    cases hw : (s.bind (addrWindow a)).writable with
    | false => exact .inr ⟨.inr rfl, by simp [State.bankWrite, hr, hw]⟩
    | true => exact .inl ⟨r, rfl, rfl, by simp [State.bankWrite, hr, hw]⟩

/-- No window is bound to the ROM and writable (R16, R56). -/
theorem State.bind_rom_readOnly {s : State} {w : BitVec 2} (h : (s.bind w).region = some .rom) : (s.bind w).writable = false := by
  unfold State.bind at *
  split at h
  · cases h
  · cases h
  all_goals
    unfold bindSwitched at *
    split at h
    · simp [*]
    · split at h <;> simp at h

/-- A banked write changes no field but the memories. -/
theorem State.bankWrite_eq_setMem (s : State) (a : Addr) (v : Byte) : s.bankWrite a v = s.setMem (s.bankWrite a v).mem := by
  rcases s.bankWrite_cases a v with ⟨r, -, -, h⟩ | ⟨-, h⟩ <;> rw [h] <;> rfl

/-- A banked write keeps every memory canonical. -/
theorem State.memWf_bankWrite {s : State} (h : s.memWf) (a : Addr) (v : Byte) : (s.bankWrite a v).memWf := by
  rcases s.bankWrite_cases a v with ⟨r, hr, -, e⟩ | ⟨-, e⟩ <;> rw [e]
  · exact State.memWf_poke h r (State.bankCell_lt _ hr) v
  · exact h

/-- A VRAM write keeps every memory canonical. -/
theorem State.memWf_vramWrite {s : State} (h : s.memWf) (a : Nat) (v : Byte) : (s.vramWrite a v).memWf :=
  State.memWf_poke h .vram (Nat.mod_lt _ (by decide)) v

/-- A palette write keeps every memory canonical. -/
theorem State.memWf_palWrite {s : State} (h : s.memWf) (i : Nat) (v : Byte) : (s.palWrite i v).memWf :=
  State.memWf_poke h .pal (Nat.mod_lt _ (by decide)) v

/-- A sprite write keeps every memory canonical. -/
theorem State.memWf_sprWrite {s : State} (h : s.memWf) (i : Nat) (v : Byte) : (s.sprWrite i v).memWf := by
  unfold State.sprWrite
  split
  · exact State.memWf_poke h .spr ‹_› v
  · exact h

/-- The reset state's memories are canonical. -/
theorem reset_memWf : State.reset.memWf := by decide

end Sys2Proof.Machine
end

