-- ==== Sys2Proof/Laws/Engine.lean ====
section
/-! SUPPORT. What ticks leave alone: the frame of every part of a tick, of `Advance` and of a charged cycle. -/

namespace Sys2Proof.Machine

/-- `u` differs from `s` at most in what the timing engine writes: its own registers, the pipeline, the raster, the tick count, the
status flag (set only), the request level (raised only, with the flag) and the frame events (appended only). -/
structure EngineFrame (s u : State) : Prop where
  cpuCycles : u.cpuCycles = s.cpuCycles
  mem : u.mem = s.mem
  dma : u.dma = s.dma
  sys : u.sys = s.sys
  readsOut : u.readsOut = s.readsOut
  trace : u.trace = s.trace
  video : u.video = { s.video with vsta := u.video.vsta }
  vsta : u.video.vsta = s.video.vsta ∨ u.video.vsta = s.video.vsta ||| 1
  irq : s.irq = true → u.irq = true
  irqFlag : u.irq = true → s.irq = true ∨ u.video.vsta.getLsbD 0 = true
  framesOut : ∃ l, u.framesOut = s.framesOut ++ l

theorem EngineFrame.refl (s : State) : EngineFrame s s :=
  ⟨rfl, rfl, rfl, rfl, rfl, rfl, rfl, .inl rfl, id, .inl, ⟨[], by simp⟩⟩

theorem EngineFrame.trans {s u w : State} (h : EngineFrame s u) (k : EngineFrame u w) : EngineFrame s w where
  cpuCycles := k.cpuCycles.trans h.cpuCycles
  mem := k.mem.trans h.mem
  dma := k.dma.trans h.dma
  sys := k.sys.trans h.sys
  readsOut := k.readsOut.trans h.readsOut
  trace := k.trace.trans h.trace
  video := by rw [k.video, h.video]
  vsta := by
    rcases h.vsta with h1 | h1 <;> rcases k.vsta with k1 | k1 <;> rw [k1, h1] <;> simp [BitVec.or_assoc]
  irq := fun x => k.irq (h.irq x)
  irqFlag := fun x => by
    rcases k.irqFlag x with y | y
    · rcases h.irqFlag y with z | z
      · exact .inl z
      · right; rcases k.vsta with e | e <;> rw [e] <;> simp [z]
    · exact .inr y
  framesOut := by
    obtain ⟨l, hl⟩ := h.framesOut
    obtain ⟨m, hm⟩ := k.framesOut
    exact ⟨l ++ m, by rw [hm, hl, List.append_assoc]⟩

theorem EngineFrame.setPipe {s u : State} (h : EngineFrame s u) (p : Pipeline) : EngineFrame s (u.setPipe p) := { h with }
theorem EngineFrame.setTim {s u : State} (h : EngineFrame s u) (t : Timing) : EngineFrame s (u.setTim t) := { h with }
theorem EngineFrame.setRaster {s u : State} (h : EngineFrame s u) (r : Raster) : EngineFrame s (u.setRaster r) := { h with }
theorem EngineFrame.setPixelClock {s u : State} (h : EngineFrame s u) (p : Nat) : EngineFrame s (u.setClocks u.cpuCycles p) := { h with }
theorem EngineFrame.emitFrame {s u : State} (h : EngineFrame s u) : EngineFrame s u.emitFrame :=
  h.trans { EngineFrame.refl u with framesOut := ⟨[u.raster.fb], rfl⟩ }

/-! ### The parts of a tick -/

/-- A fetch slot writes pipeline latches only. -/
theorem fetch_eq_setPipe (p : BitVec 3) (s : State) : fetch p s = s.setPipe (fetch p s).pipe := by
  unfold fetch fetchName fetchAttr fetchGfx0 fetchGfx1 fetchIdle
  split <;> (try split) <;> rfl

/-- The shift and load write pipeline latches only. -/
theorem shiftLoad_eq_setPipe (p : BitVec 3) (s : State) : shiftLoad p s = s.setPipe (shiftLoad p s).pipe := by
  unfold shiftLoad; split <;> rfl

/-- The pixel latch is a pipeline latch. -/
theorem latchPixel_eq_setPipe (p : BitVec 3) (s : State) : latchPixel p s = s.setPipe (latchPixel p s).pipe := by
  unfold latchPixel; split <;> rfl

/-- Drawing writes the framebuffer and its column cursor only. -/
theorem drawPixel_eq_setRaster (s : State) : drawPixel s = s.setRaster (drawPixel s).raster := by
  unfold drawPixel; split <;> rfl

/-- Steps 1 to 3 of a tick write the pipeline and the raster only. -/
theorem pixelStage_eq (p : BitVec 3) (s : State) :
    ∃ x r, pixelOut p (shiftLoad p (fetch p s)) = (s.setPipe x).setRaster r := by
  rw [pixelOut, drawPixel_eq_setRaster, latchPixel_eq_setPipe, shiftLoad_eq_setPipe, fetch_eq_setPipe]
  exact ⟨_, _, rfl⟩

/-- Raising the flag. -/
theorem engineFrame_raiseVsync (s : State) : EngineFrame s (raiseVsync s) := by
  unfold raiseVsync
  constructor <;> (try simp only []) <;> split <;>
    first
    | rfl
    | exact .inr rfl
    | exact fun h => h
    | exact fun _ => rfl
    | exact fun _ => .inr (by simp)
    | exact fun h => .inl h
    | exact ⟨[], by simp⟩

theorem engineFrame_onCount (c k : Nat) {act : State → State} (h : ∀ s, EngineFrame s (act s)) (s : State) :
    EngineFrame s (onCount c k act s) := by
  unfold onCount; split
  · exact h s
  · exact .refl s

theorem engineFrame_hAdvance (s : State) : EngineFrame s (hAdvance s) := by
  unfold hAdvance hThresholds
  refine ((((?_ : EngineFrame s (hCount s)).trans (engineFrame_onCount _ _ ?_ _)).trans (engineFrame_onCount _ _ ?_ _)).trans
    (engineFrame_onCount _ _ ?_ _)).trans (engineFrame_onCount _ _ ?_ _)
  · exact (EngineFrame.refl s).setTim _
  · exact fun s => (EngineFrame.refl s).setTim _
  · exact EngineFrame.refl
  · exact EngineFrame.refl
  · exact fun s => ((((EngineFrame.refl s).setTim _).setTim _).setRaster _).setTim _ |>.setPipe _

theorem engineFrame_lineEnd (s : State) : EngineFrame s (lineEnd s) := by
  unfold lineEnd vThresholds
  refine ((((?_ : EngineFrame s (lineCount s)).trans (engineFrame_onCount _ _ ?_ _)).trans (engineFrame_onCount _ _ ?_ _)).trans
    (engineFrame_onCount _ _ ?_ _)).trans (engineFrame_onCount _ _ ?_ _)
  · exact ((EngineFrame.refl s).setRaster _).setTim _
  · exact fun s => ((EngineFrame.refl s).setTim _).emitFrame
  · exact engineFrame_raiseVsync
  · exact EngineFrame.refl
  · exact fun s => ((EngineFrame.refl s).setRaster _).setTim _

theorem engineFrame_tick (s : State) : EngineFrame s (tick s) := by
  have h1 : EngineFrame s (pixelOut s.tim.hsub (shiftLoad s.tim.hsub (fetch s.tim.hsub s))) := by
    obtain ⟨x, r, e⟩ := pixelStage_eq s.tim.hsub s
    rw [e]; exact ((EngineFrame.refl s).setPipe _).setRaster _
  simp only [tick, lineEndIfDue]
  split
  · exact (h1.trans (engineFrame_hAdvance _)).trans (engineFrame_lineEnd _)
  · exact h1.trans (engineFrame_hAdvance _)

theorem engineFrame_countedTick (s : State) : EngineFrame s (countedTick s) := (engineFrame_tick s).setPixelClock _

theorem engineFrame_ticks (n : Nat) (s : State) : EngineFrame s (ticks n s) := by
  induction n generalizing s with
  | zero => exact .refl s
  | succ n ih => exact (engineFrame_countedTick s).trans (ih _)

theorem engineFrame_advance (s : State) : EngineFrame s (advance s) := engineFrame_ticks _ s

/-! ### The same, field by field -/

section Advance
variable (s : State)
@[simp] theorem advance_cpuCycles : (advance s).cpuCycles = s.cpuCycles := (engineFrame_advance s).cpuCycles
@[simp] theorem advance_mem : (advance s).mem = s.mem := (engineFrame_advance s).mem
@[simp] theorem advance_dma : (advance s).dma = s.dma := (engineFrame_advance s).dma
@[simp] theorem advance_sys : (advance s).sys = s.sys := (engineFrame_advance s).sys
@[simp] theorem advance_readsOut : (advance s).readsOut = s.readsOut := (engineFrame_advance s).readsOut
@[simp] theorem advance_trace : (advance s).trace = s.trace := (engineFrame_advance s).trace
theorem advance_video : (advance s).video = { s.video with vsta := (advance s).video.vsta } := (engineFrame_advance s).video
@[simp] theorem advance_vctl : (advance s).video.vctl = s.video.vctl := by rw [advance_video]
@[simp] theorem advance_vena : (advance s).video.vena = s.video.vena := by rw [advance_video]
@[simp] theorem advance_scrh : (advance s).video.scrh = s.video.scrh := by rw [advance_video]
@[simp] theorem advance_scrhf : (advance s).video.scrhf = s.video.scrhf := by rw [advance_video]
@[simp] theorem advance_scrv : (advance s).video.scrv = s.video.scrv := by rw [advance_video]
@[simp] theorem advance_scrvf : (advance s).video.scrvf = s.video.scrvf := by rw [advance_video]
@[simp] theorem advance_ntsize : (advance s).video.ntsize = s.video.ntsize := by rw [advance_video]
@[simp] theorem advance_ntbase : (advance s).video.ntbase = s.video.ntbase := by rw [advance_video]
@[simp] theorem advance_pala : (advance s).video.pala = s.video.pala := by rw [advance_video]
@[simp] theorem advance_spra : (advance s).video.spra = s.video.spra := by rw [advance_video]
@[simp] theorem advance_peek (r : Config.Region) (a : Nat) : (advance s).peek r a = s.peek r a := by simp [State.peek]
end Advance

/-! ### The tick count -/

/-- A conditional action on a field that the action leaves alone. -/
theorem onCount_field {β : Type} (g : State → β) (c k : Nat) {act : State → State} (h : ∀ s, g (act s) = g s) (s : State) :
    g (onCount c k act s) = g s := by
  unfold onCount; split
  · exact h s
  · rfl

theorem raiseVsync_pixelClock (s : State) : (raiseVsync s).pixelClock = s.pixelClock := by
  unfold raiseVsync; simp only []; split <;> rfl

theorem atHEarly_pixelClock (s : State) : (atHEarly s).pixelClock = s.pixelClock := by
  simp only [atHEarly, earlyLatches, earlyCursor, earlyColumn, earlyRow, State.setPipe_pixelClock, State.setTim_pixelClock,
    State.setRaster_pixelClock]

theorem hAdvance_pixelClock (s : State) : (hAdvance s).pixelClock = s.pixelClock := by
  simp only [hAdvance, hThresholds]
  rw [onCount_field State.pixelClock _ _ (act := atHEarly) atHEarly_pixelClock, onCount_field State.pixelClock _ _ (act := atHSyncEnd) fun _ => rfl,
    onCount_field State.pixelClock _ _ (act := atHSyncStart) fun _ => rfl, onCount_field State.pixelClock _ _ (act := atHVisEnd) fun _ => rfl]
  rfl

theorem lineEnd_pixelClock (s : State) : (lineEnd s).pixelClock = s.pixelClock := by
  simp only [lineEnd, vThresholds]
  rw [onCount_field State.pixelClock _ _ (act := atVTotal) fun _ => rfl, onCount_field State.pixelClock _ _ (act := atVSyncEnd) fun _ => rfl,
    onCount_field State.pixelClock _ _ (act := atVSyncStart) raiseVsync_pixelClock,
    onCount_field State.pixelClock _ _ (act := atVVisEnd) fun _ => rfl]
  rfl

theorem tick_pixelClock (s : State) : (tick s).pixelClock = s.pixelClock := by
  have h1 : (pixelOut s.tim.hsub (shiftLoad s.tim.hsub (fetch s.tim.hsub s))).pixelClock = s.pixelClock := by
    obtain ⟨x, r, e⟩ := pixelStage_eq s.tim.hsub s
    rw [e]; rfl
  simp only [tick, lineEndIfDue]
  split
  · rw [lineEnd_pixelClock, hAdvance_pixelClock, h1]
  · rw [hAdvance_pixelClock, h1]

@[simp] theorem countedTick_pixelClock (s : State) : (countedTick s).pixelClock = s.pixelClock + 1 := by
  simp [countedTick, tick_pixelClock]

@[simp] theorem ticks_pixelClock (n : Nat) (s : State) : (ticks n s).pixelClock = s.pixelClock + n := by
  induction n generalizing s with
  | zero => rfl
  | succ n ih => rw [ticks, ih, countedTick_pixelClock]; omega

theorem ticks_add (m n : Nat) (s : State) : ticks (m + n) s = ticks n (ticks m s) := by
  induction m generalizing s with
  | zero => simp [ticks]
  | succ m ih => rw [Nat.succ_add, ticks, ticks, ih]

theorem ticks_succ (n : Nat) (s : State) : ticks (n + 1) s = countedTick (ticks n s) := by rw [ticks_add]; rfl

@[simp] theorem advance_pixelClock (s : State) : (advance s).pixelClock = max s.pixelClock (tickGoal s.cpuCycles) := by
  simp only [advance, ticks_pixelClock]; omega

/-- An engine that is not behind runs no tick. -/
theorem advance_of_caughtUp {s : State} (h : tickGoal s.cpuCycles ≤ s.pixelClock) : advance s = s := by
  rw [advance, Nat.sub_eq_zero_of_le h]; rfl

theorem tickGoal_le_advance (s : State) : tickGoal (advance s).cpuCycles ≤ (advance s).pixelClock := by simp

/-! ### A charged cycle -/

section Cycle
variable (s : State)
@[simp] theorem addCycles_cpuCycles (n : Nat) : (s.addCycles n).cpuCycles = s.cpuCycles + n := rfl
@[simp] theorem addCycles_pixelClock (n : Nat) : (s.addCycles n).pixelClock = s.pixelClock := rfl
@[simp] theorem addCycles_mem (n : Nat) : (s.addCycles n).mem = s.mem := rfl
@[simp] theorem addCycles_video (n : Nat) : (s.addCycles n).video = s.video := rfl
@[simp] theorem addCycles_dma (n : Nat) : (s.addCycles n).dma = s.dma := rfl
@[simp] theorem addCycles_sys (n : Nat) : (s.addCycles n).sys = s.sys := rfl
@[simp] theorem addCycles_irq (n : Nat) : (s.addCycles n).irq = s.irq := rfl
@[simp] theorem addCycles_tim (n : Nat) : (s.addCycles n).tim = s.tim := rfl
@[simp] theorem addCycles_pipe (n : Nat) : (s.addCycles n).pipe = s.pipe := rfl
@[simp] theorem addCycles_raster (n : Nat) : (s.addCycles n).raster = s.raster := rfl
@[simp] theorem addCycles_framesOut (n : Nat) : (s.addCycles n).framesOut = s.framesOut := rfl
@[simp] theorem addCycles_readsOut (n : Nat) : (s.addCycles n).readsOut = s.readsOut := rfl
@[simp] theorem addCycles_trace (n : Nat) : (s.addCycles n).trace = s.trace := rfl
@[simp] theorem cycle_cpuCycles : (cycle s).cpuCycles = s.cpuCycles + 1 := by simp [cycle]
@[simp] theorem cycle_pixelClock : (cycle s).pixelClock = max s.pixelClock (tickGoal (s.cpuCycles + 1)) := by simp [cycle]
@[simp] theorem cycle_mem : (cycle s).mem = s.mem := by simp [cycle]
@[simp] theorem cycle_dma : (cycle s).dma = s.dma := by simp [cycle]
@[simp] theorem cycle_sys : (cycle s).sys = s.sys := by simp [cycle]
@[simp] theorem cycle_readsOut : (cycle s).readsOut = s.readsOut := by simp [cycle]
@[simp] theorem cycle_trace : (cycle s).trace = s.trace := by simp [cycle]
theorem cycle_video : (cycle s).video = { s.video with vsta := (cycle s).video.vsta } := advance_video (s.addCycles 1)
@[simp] theorem cycle_vctl : (cycle s).video.vctl = s.video.vctl := by rw [cycle_video]
@[simp] theorem cycle_ntsize : (cycle s).video.ntsize = s.video.ntsize := by rw [cycle_video]
@[simp] theorem cycle_peek (r : Config.Region) (a : Nat) : (cycle s).peek r a = s.peek r a := by simp [State.peek]
/-- A cycle leaves the engine caught up. -/
theorem tickGoal_le_cycle : tickGoal (cycle s).cpuCycles ≤ (cycle s).pixelClock := by simp
end Cycle

/-- `n` charged cycles, as one equation for the clocks. -/
theorem iterate_cycle_clocks (n : Nat) (s : State) :
    (cycle^[n] s).cpuCycles = s.cpuCycles + n ∧
      (cycle^[n] s).pixelClock = if n = 0 then s.pixelClock else max s.pixelClock (tickGoal (s.cpuCycles + n)) := by
  induction n with
  | zero => simp
  | succ n ih =>
    rw [Function.iterate_succ_apply', cycle_cpuCycles, cycle_pixelClock, ih.1, ih.2]
    refine ⟨by omega, ?_⟩
    have : tickGoal (s.cpuCycles + n) ≤ tickGoal (s.cpuCycles + n + 1) := by simp only [tickGoal, Config.clkNum, Config.clkDen]; omega
    split
    · simp_all
    · simp [← Nat.add_assoc]; omega

/-- `n` charged cycles, without the cycle count: nothing but the engine moves. -/
theorem engineFrame_iterate_cycle (n : Nat) (s : State) : EngineFrame (s.addCycles n) (cycle^[n] s) := by
  induction n with
  | zero => exact .refl s
  | succ n ih =>
    rw [Function.iterate_succ_apply']
    have h : EngineFrame (s.addCycles (n + 1)) ((cycle^[n] s).addCycles 1) :=
      { ih with cpuCycles := by simp only [addCycles_cpuCycles, (iterate_cycle_clocks n s).1]; omega }
    exact h.trans (engineFrame_advance _)

end Sys2Proof.Machine
end

