-- ==== Sys2Proof/Laws/Counters.lean ====
section
/-! SUPPORT. What a tick does to the counters, the latches and the cursors, and that it keeps the invariants of the engine. -/

namespace Sys2Proof.Machine

/-! ### Conditional actions -/

section OnCount
variable (c k : Nat) (act : State → State) (s : State)
theorem onCount_tim : (onCount c k act s).tim = if c = k then (act s).tim else s.tim := apply_ite ..
theorem onCount_pipe : (onCount c k act s).pipe = if c = k then (act s).pipe else s.pipe := apply_ite ..
theorem onCount_raster : (onCount c k act s).raster = if c = k then (act s).raster else s.raster := apply_ite ..
theorem onCount_video : (onCount c k act s).video = if c = k then (act s).video else s.video := apply_ite ..
theorem onCount_irq : (onCount c k act s).irq = if c = k then (act s).irq else s.irq := apply_ite ..
theorem onCount_framesOut : (onCount c k act s).framesOut = if c = k then (act s).framesOut else s.framesOut := apply_ite ..
end OnCount

section Raise
variable (s : State)
@[simp] theorem raiseVsync_tim : (raiseVsync s).tim = s.tim := by simp only [raiseVsync]; split <;> rfl
@[simp] theorem raiseVsync_pipe : (raiseVsync s).pipe = s.pipe := by simp only [raiseVsync]; split <;> rfl
@[simp] theorem raiseVsync_raster : (raiseVsync s).raster = s.raster := by simp only [raiseVsync]; split <;> rfl
@[simp] theorem raiseVsync_framesOut : (raiseVsync s).framesOut = s.framesOut := by simp only [raiseVsync]; split <;> rfl
@[simp] theorem raiseVsync_video : (raiseVsync s).video = { s.video with vsta := s.video.vsta ||| 1 } := by
  simp only [raiseVsync]; split <;> rfl
@[simp] theorem raiseVsync_irq : (raiseVsync s).irq = if s.video.vena.getLsbD 0 = true then true else s.irq := by
  by_cases h : s.video.vena.getLsbD 0 = true
  · have e : raiseVsync s = (s.setVideo { s.video with vsta := s.video.vsta ||| 1 }).setIrq true := if_pos h
    rw [e, if_pos h]; rfl
  · have e : raiseVsync s = s.setVideo { s.video with vsta := s.video.vsta ||| 1 } := if_neg h
    rw [e, if_neg h]; rfl
end Raise

/-! ### Steps 1 to 3 -/

section Stage
variable (p : BitVec 3) (s : State)
@[simp] theorem fetch_tim : (fetch p s).tim = s.tim := by rw [fetch_eq_setPipe]; rfl
@[simp] theorem fetch_raster : (fetch p s).raster = s.raster := by rw [fetch_eq_setPipe]; rfl
@[simp] theorem fetch_video : (fetch p s).video = s.video := by rw [fetch_eq_setPipe]; rfl
@[simp] theorem fetch_mem : (fetch p s).mem = s.mem := by rw [fetch_eq_setPipe]; rfl
@[simp] theorem fetch_framesOut : (fetch p s).framesOut = s.framesOut := by rw [fetch_eq_setPipe]; rfl
@[simp] theorem fetch_irq : (fetch p s).irq = s.irq := by rw [fetch_eq_setPipe]; rfl
@[simp] theorem shiftLoad_tim : (shiftLoad p s).tim = s.tim := by rw [shiftLoad_eq_setPipe]; rfl
@[simp] theorem shiftLoad_raster : (shiftLoad p s).raster = s.raster := by rw [shiftLoad_eq_setPipe]; rfl
@[simp] theorem shiftLoad_video : (shiftLoad p s).video = s.video := by rw [shiftLoad_eq_setPipe]; rfl
@[simp] theorem shiftLoad_mem : (shiftLoad p s).mem = s.mem := by rw [shiftLoad_eq_setPipe]; rfl
@[simp] theorem shiftLoad_framesOut : (shiftLoad p s).framesOut = s.framesOut := by rw [shiftLoad_eq_setPipe]; rfl
@[simp] theorem shiftLoad_irq : (shiftLoad p s).irq = s.irq := by rw [shiftLoad_eq_setPipe]; rfl
@[simp] theorem latchPixel_tim : (latchPixel p s).tim = s.tim := by rw [latchPixel_eq_setPipe]; rfl
@[simp] theorem latchPixel_raster : (latchPixel p s).raster = s.raster := by rw [latchPixel_eq_setPipe]; rfl
@[simp] theorem latchPixel_video : (latchPixel p s).video = s.video := by rw [latchPixel_eq_setPipe]; rfl
@[simp] theorem latchPixel_mem : (latchPixel p s).mem = s.mem := by rw [latchPixel_eq_setPipe]; rfl
@[simp] theorem latchPixel_framesOut : (latchPixel p s).framesOut = s.framesOut := by rw [latchPixel_eq_setPipe]; rfl
@[simp] theorem latchPixel_irq : (latchPixel p s).irq = s.irq := by rw [latchPixel_eq_setPipe]; rfl
@[simp] theorem drawPixel_tim : (drawPixel s).tim = s.tim := by rw [drawPixel_eq_setRaster]; rfl
@[simp] theorem drawPixel_pipe : (drawPixel s).pipe = s.pipe := by rw [drawPixel_eq_setRaster]; rfl
@[simp] theorem drawPixel_video : (drawPixel s).video = s.video := by rw [drawPixel_eq_setRaster]; rfl
@[simp] theorem drawPixel_mem : (drawPixel s).mem = s.mem := by rw [drawPixel_eq_setRaster]; rfl
@[simp] theorem drawPixel_framesOut : (drawPixel s).framesOut = s.framesOut := by rw [drawPixel_eq_setRaster]; rfl
@[simp] theorem drawPixel_irq : (drawPixel s).irq = s.irq := by rw [drawPixel_eq_setRaster]; rfl
@[simp] theorem drawPixel_row : (drawPixel s).raster.row = s.raster.row := by unfold drawPixel; split <;> rfl
theorem drawPixel_col : (drawPixel s).raster.col =
    if s.tim.hborder = false ∧ s.tim.vborder = false then min (s.raster.col + 1) Config.fbW else s.raster.col := by
  unfold drawPixel; split <;> rfl
theorem drawPixel_fb : (drawPixel s).raster.fb =
    if (s.tim.hborder = false ∧ s.tim.vborder = false) ∧ s.raster.row < Config.fbH ∧ s.raster.col < Config.fbW then
      fbWrite s.raster.fb s.raster.row s.raster.col s.pixelColour
    else s.raster.fb := by
  unfold drawPixel
  by_cases h : s.tim.hborder = false ∧ s.tim.vborder = false <;> by_cases k : s.raster.row < Config.fbH ∧ s.raster.col < Config.fbW <;>
    simp [h, k]
@[simp] theorem pixelOut_tim : (pixelOut p s).tim = s.tim := by simp [pixelOut]
@[simp] theorem pixelOut_video : (pixelOut p s).video = s.video := by simp [pixelOut]
@[simp] theorem pixelOut_mem : (pixelOut p s).mem = s.mem := by simp [pixelOut]
@[simp] theorem pixelOut_framesOut : (pixelOut p s).framesOut = s.framesOut := by simp [pixelOut]
@[simp] theorem pixelOut_irq : (pixelOut p s).irq = s.irq := by simp [pixelOut]
@[simp] theorem pixelOut_row : (pixelOut p s).raster.row = s.raster.row := by simp [pixelOut]
end Stage

/-! ### Step 4 -/

section HAdvance
variable (s : State)

/-- The timing registers after step 4 (R224 to R231). -/
theorem hAdvance_tim : (hAdvance s).tim =
    { s.tim with
      hcount := s.tim.hcount + 1
      hsub := s.tim.hsub + 1
      htile :=
        if s.tim.hcount + 1 = Config.hEarly then BitVec.ofNat 8 (s.video.scrh.toNat % s.ntWidth)
        else if s.tim.hsub + 1 = 0 then BitVec.ofNat 8 ((s.tim.htile.toNat + 1) % s.ntWidth) else s.tim.htile
      vsub := if s.tim.hcount + 1 = Config.hEarly then s.tim.vsub + 1 else s.tim.vsub
      vtile :=
        if s.tim.hcount + 1 = Config.hEarly ∧ s.tim.vsub + 1 = 0 then BitVec.ofNat 8 ((s.tim.vtile.toNat + 1) % s.ntHeight)
        else s.tim.vtile
      hborder := if s.tim.hcount + 1 = Config.hVisEnd then true else s.tim.hborder
      hblank := if s.tim.hcount + 1 = Config.hVisEnd then true else s.tim.hblank
      hbusy :=
        if s.tim.hcount + 1 = Config.hVisEnd then false else if s.tim.hcount + 1 = Config.hEarly then true else s.tim.hbusy } := by
  by_cases h1 : s.tim.hcount + 1 = Config.hVisEnd
  · simp [hAdvance, hThresholds, hCount, onCount, h1, Config.hVisEnd, Config.hEarly, Config.hSyncEnd, Config.hSyncStart, atHVisEnd,
      State.ntWidth]
  · by_cases h2 : s.tim.hcount + 1 = Config.hEarly
    · simp [hAdvance, hThresholds, hCount, onCount, h2, Config.hVisEnd, Config.hEarly, Config.hSyncEnd, Config.hSyncStart, atHEarly,
        earlyLatches, earlyCursor, earlyColumn, earlyRow, State.ntWidth, State.ntHeight]
    · simp [hAdvance, hThresholds, hCount, onCount_tim, h1, h2, atHSyncStart, atHSyncEnd, State.ntWidth]

/-- The latches after step 4 (R232). -/
theorem hAdvance_pipe : (hAdvance s).pipe =
    if s.tim.hcount + 1 = Config.hEarly then { name := 0, attrF := 0, attrA := 0, gfx0 := 0, gfx1 := 0, sr := 0, pix := 0 }
    else s.pipe := by
  simp [hAdvance, hThresholds, hCount, onCount_pipe, atHEarly, earlyLatches, atHSyncStart, atHSyncEnd, atHVisEnd]

/-- The framebuffer and the cursors after step 4 (R231). -/
theorem hAdvance_raster : (hAdvance s).raster =
    if s.tim.hcount + 1 = Config.hEarly then { s.raster with col := Config.fbX0 } else s.raster := by
  simp [hAdvance, hThresholds, hCount, onCount_raster, atHEarly, earlyLatches, earlyCursor, earlyColumn, earlyRow, atHSyncStart,
    atHSyncEnd, atHVisEnd]

@[simp] theorem hAdvance_video : (hAdvance s).video = s.video := by
  simp [hAdvance, hThresholds, hCount, onCount_video, atHEarly, earlyLatches, earlyCursor, earlyColumn, earlyRow, atHSyncStart,
    atHSyncEnd, atHVisEnd]

@[simp] theorem hAdvance_irq : (hAdvance s).irq = s.irq := by
  simp [hAdvance, hThresholds, hCount, onCount_irq, atHEarly, earlyLatches, earlyCursor, earlyColumn, earlyRow, atHSyncStart,
    atHSyncEnd, atHVisEnd]

@[simp] theorem hAdvance_framesOut : (hAdvance s).framesOut = s.framesOut := by
  simp [hAdvance, hThresholds, hCount, onCount_framesOut, atHEarly, earlyLatches, earlyCursor, earlyColumn, earlyRow, atHSyncStart,
    atHSyncEnd, atHVisEnd]

end HAdvance

/-! ### Step 5 -/

section LineEnd
variable (s : State)

/-- The timing registers after a line end (R234, R238, R242). -/
theorem lineEnd_tim : (lineEnd s).tim =
    { s.tim with
      hcount := 0
      hsub := 0
      hborder := false
      hblank := false
      vcount := if s.tim.vcount + 1 = Config.vTotal then 0 else s.tim.vcount + 1
      vborder :=
        if s.tim.vcount + 1 = Config.vVisEnd then true else if s.tim.vcount + 1 = Config.vTotal then false else s.tim.vborder
      vblank :=
        if s.tim.vcount + 1 = Config.vVisEnd then true else if s.tim.vcount + 1 = Config.vTotal then false else s.tim.vblank
      vbusy :=
        if s.tim.vcount + 1 = Config.vVisEnd then false else if s.tim.vcount + 1 = Config.vTotal then true else s.tim.vbusy
      vtile :=
        if s.tim.vcount + 1 = Config.vTotal then BitVec.ofNat 8 (s.video.scrv.toNat % s.ntHeight) else s.tim.vtile
      vsub := if s.tim.vcount + 1 = Config.vTotal then s.video.scrvf else s.tim.vsub } := by
  by_cases h1 : s.tim.vcount + 1 = Config.vVisEnd
  · simp [lineEnd, vThresholds, lineCount, onCount_tim, h1, Config.vVisEnd, Config.vSyncStart, Config.vSyncEnd, Config.vTotal, atVVisEnd,
      State.emitFrame]
  · by_cases h2 : s.tim.vcount + 1 = Config.vTotal
    · simp [lineEnd, vThresholds, lineCount, onCount, h2, Config.vVisEnd, Config.vSyncStart, Config.vSyncEnd, Config.vTotal, atVTotal,
        State.ntHeight]
    · simp [lineEnd, vThresholds, lineCount, onCount_tim, h1, h2, atVSyncStart, atVSyncEnd]

/-- The cursors after a line end (R234, R242). -/
theorem lineEnd_raster : (lineEnd s).raster =
    { s.raster with
      row := if s.tim.vcount + 1 = Config.vTotal then Config.fbY0 else min (s.raster.row + 1) (Config.fbH - 1)
      col := if s.tim.vcount + 1 = Config.vTotal then Config.fbX0 else s.raster.col } := by
  by_cases h2 : s.tim.vcount + 1 = Config.vTotal <;>
    simp [lineEnd, vThresholds, lineCount, onCount_raster, h2, atVVisEnd, atVSyncStart, atVSyncEnd, atVTotal, State.emitFrame]

/-- The frame-complete event (R238, R286). -/
theorem lineEnd_framesOut : (lineEnd s).framesOut =
    if s.tim.vcount + 1 = Config.vVisEnd then s.framesOut ++ [s.raster.fb] else s.framesOut := by
  by_cases h1 : s.tim.vcount + 1 = Config.vVisEnd <;>
    simp [lineEnd, vThresholds, lineCount, onCount_framesOut, h1, atVVisEnd, atVSyncStart, atVSyncEnd, atVTotal, State.emitFrame]

/-- The status flag (R240). -/
theorem lineEnd_video : (lineEnd s).video =
    { s.video with vsta := if s.tim.vcount + 1 = Config.vSyncStart then s.video.vsta ||| 1 else s.video.vsta } := by
  by_cases h1 : s.tim.vcount + 1 = Config.vSyncStart <;>
    simp [lineEnd, vThresholds, lineCount, onCount_video, h1, atVVisEnd, atVSyncStart, atVSyncEnd, atVTotal, State.emitFrame]

/-- The interrupt request (R240). -/
theorem lineEnd_irq : (lineEnd s).irq =
    if s.tim.vcount + 1 = Config.vSyncStart ∧ s.video.vena.getLsbD 0 = true then true else s.irq := by
  by_cases h1 : s.tim.vcount + 1 = Config.vSyncStart <;>
    simp [lineEnd, vThresholds, lineCount, onCount_irq, onCount_video, h1, atVVisEnd, atVSyncStart, atVSyncEnd, atVTotal,
      State.emitFrame]

@[simp] theorem lineEnd_pipe : (lineEnd s).pipe = s.pipe := by
  simp [lineEnd, vThresholds, lineCount, onCount_pipe, atVVisEnd, atVSyncStart, atVSyncEnd, atVTotal, State.emitFrame]

end LineEnd

/-! ### A tick -/

/-- Steps 1 to 3 of a tick (R222). -/
def pixelStage (s : State) : State := pixelOut s.tim.hsub (shiftLoad s.tim.hsub (fetch s.tim.hsub s))

section PixelStage
variable (s : State)
@[simp] theorem pixelStage_tim : (pixelStage s).tim = s.tim := by simp [pixelStage]
@[simp] theorem pixelStage_video : (pixelStage s).video = s.video := by simp [pixelStage]
@[simp] theorem pixelStage_mem : (pixelStage s).mem = s.mem := by simp [pixelStage]
@[simp] theorem pixelStage_irq : (pixelStage s).irq = s.irq := by simp [pixelStage]
@[simp] theorem pixelStage_framesOut : (pixelStage s).framesOut = s.framesOut := by simp [pixelStage]
@[simp] theorem pixelStage_row : (pixelStage s).raster.row = s.raster.row := by simp [pixelStage]
theorem pixelStage_col : (pixelStage s).raster.col =
    if s.tim.hborder = false ∧ s.tim.vborder = false then min (s.raster.col + 1) Config.fbW else s.raster.col := by
  simp [pixelStage, pixelOut, drawPixel_col]
end PixelStage

/-- A tick inside a line (R222). -/
theorem tick_of_lt {s : State} (h : s.tim.hcount + 1 ≠ Config.hTotal) : tick s = hAdvance (pixelStage s) := by
  have : (hAdvance (pixelStage s)).tim.hcount ≠ Config.hTotal := by simpa [hAdvance_tim] using h
  exact if_neg this

/-- The last tick of a line (R222, R234). -/
theorem tick_of_eq {s : State} (h : s.tim.hcount + 1 = Config.hTotal) : tick s = lineEnd (hAdvance (pixelStage s)) := by
  have : (hAdvance (pixelStage s)).tim.hcount = Config.hTotal := by simpa [hAdvance_tim] using h
  exact if_pos this

/-- The two counters after a tick (R226, R234, R242). -/
theorem tick_counts (s : State) :
    (tick s).tim.hcount = (if s.tim.hcount + 1 = Config.hTotal then 0 else s.tim.hcount + 1) ∧
      (tick s).tim.vcount =
        if s.tim.hcount + 1 = Config.hTotal then if s.tim.vcount + 1 = Config.vTotal then 0 else s.tim.vcount + 1
        else s.tim.vcount := by
  by_cases h : s.tim.hcount + 1 = Config.hTotal
  · simp [tick_of_eq h, lineEnd_tim, hAdvance_tim, h]
  · simp [tick_of_lt h, hAdvance_tim, h]

/-- A tick moves the engine one place on in its frame. -/
theorem tick_position {s : State} (h : EngineInv s) : (tick s).position = (s.position + 1) % frameTicks := by
  have h1 := h.hcount_lt
  have h2 := h.vcount_lt
  unfold State.position
  rw [(tick_counts s).1, (tick_counts s).2]
  simp only [frameTicks, Config.hTotal, Config.vTotal] at *
  by_cases h3 : s.tim.hcount + 1 = 432
  · by_cases h4 : s.tim.vcount + 1 = 262
    · simp only [h3, h4, if_true]; omega
    · simp only [h3, h4, if_true, if_false]; omega
  · simp only [h3, if_false]; omega

theorem bitVec3_succ_toNat (x : BitVec 3) {n : Nat} (h : x.toNat = n % 8) : (x + 1).toNat = (n + 1) % 8 := by
  simp [BitVec.toNat_add, h]

/-- A tick keeps the latches and cursors functions of the counters. -/
theorem engineInv_tick {s : State} (h : EngineInv s) : EngineInv (tick s) := by
  obtain ⟨h1, h2, h3, h4, h5, h6, h7, h8, h9, h10, h11⟩ := h
  by_cases hl : s.tim.hcount + 1 = Config.hTotal
  · rw [tick_of_eq hl]
    simp only [Config.hTotal, Config.vTotal, Config.hVisEnd, Config.hEarly, Config.vVisEnd, Config.fbX0, Config.fbY0, Config.fbH] at *
    constructor <;>
      simp only [lineEnd_tim, lineEnd_raster, hAdvance_tim, hAdvance_raster, pixelStage_tim, Config.hTotal, Config.vTotal,
        Config.hVisEnd, Config.hEarly, Config.vVisEnd, Config.fbX0, Config.fbY0, Config.fbH, hl]
    · decide
    · split <;> omega
    · rfl
    · simp
    · by_cases hv : s.tim.vcount + 1 = 240
      · simp [hv]
      · by_cases hw : s.tim.vcount + 1 = 262
        · simp [hw]
        · simp only [hv, hw, if_false, h6]; omega
    · rw [h7]
    · have : s.tim.hcount = 431 := by omega
      simp [h8, this]
    · by_cases hv : s.tim.vcount + 1 = 240
      · simp [hv]
      · by_cases hw : s.tim.vcount + 1 = 262
        · simp [hw]
        · simp only [hv, hw, if_false, h9]; omega
    · split
      · simp
      · simp only [h10, show ¬ (432 = 416) by decide, if_false, pixelStage_row]; omega
    · split
      · simp
      · have e : s.tim.hcount = 431 := by omega
        have hb : s.tim.hborder = true := by rw [h4]; omega
        simp [pixelStage_col, hb, h11, e]
  · rw [tick_of_lt hl]
    simp only [Config.hTotal, Config.vTotal, Config.hVisEnd, Config.hEarly, Config.vVisEnd, Config.fbX0, Config.fbY0, Config.fbH] at *
    constructor <;>
      simp only [hAdvance_tim, hAdvance_raster, pixelStage_tim, Config.hTotal, Config.vTotal, Config.hVisEnd, Config.hEarly,
        Config.vVisEnd, Config.fbX0, Config.fbY0, Config.fbH]
    · omega
    · exact h2
    · exact bitVec3_succ_toNat _ h3
    · split
      · simp; omega
      · rw [h4]; omega
    · rw [h5]
    · exact h6
    · exact h7
    · split
      · simp; omega
      · split
        · simp; omega
        · rw [h8]; omega
    · exact h9
    · split <;> simp [h10]
    · have hv : (s.tim.hborder = false ∧ s.tim.vborder = false) ↔ s.tim.hcount < 320 ∧ s.tim.vcount < 240 := by
        rw [Bool.eq_false_iff, Bool.eq_false_iff, Ne, Ne, h4, h6]; omega
      rw [apply_ite Raster.col, pixelStage_col, h11]
      simp only [hv, Config.fbW]
      split <;> (try split) <;> (try split) <;> (try split) <;> omega

/-! ### Many ticks -/

theorem engineInv_of_eq {s u : State} (h : EngineInv s) (ht : u.tim = s.tim) (hr : u.raster = s.raster) : EngineInv u := by
  obtain ⟨h1, h2, h3, h4, h5, h6, h7, h8, h9, h10, h11⟩ := h
  rw [← ht] at h1 h2 h3 h4 h5 h6 h7 h8 h9 h10 h11
  rw [← hr] at h10 h11
  exact ⟨h1, h2, h3, h4, h5, h6, h7, h8, h9, h10, h11⟩

@[simp] theorem countedTick_tim (s : State) : (countedTick s).tim = (tick s).tim := rfl
@[simp] theorem countedTick_raster (s : State) : (countedTick s).raster = (tick s).raster := rfl
@[simp] theorem countedTick_pipe (s : State) : (countedTick s).pipe = (tick s).pipe := rfl
@[simp] theorem countedTick_video (s : State) : (countedTick s).video = (tick s).video := rfl
@[simp] theorem countedTick_irq (s : State) : (countedTick s).irq = (tick s).irq := rfl
@[simp] theorem countedTick_framesOut (s : State) : (countedTick s).framesOut = (tick s).framesOut := rfl
@[simp] theorem countedTick_position (s : State) : (countedTick s).position = (tick s).position := rfl

theorem engineInv_countedTick {s : State} (h : EngineInv s) : EngineInv (countedTick s) := engineInv_of_eq (engineInv_tick h) rfl rfl

theorem engineInv_ticks {s : State} (h : EngineInv s) (n : Nat) : EngineInv (ticks n s) := by
  induction n generalizing s with
  | zero => exact h
  | succ n ih => exact ih (engineInv_countedTick h)

theorem engineInv_advance {s : State} (h : EngineInv s) : EngineInv (advance s) := engineInv_ticks h _

/-- The position is below the length of a frame. -/
theorem EngineInv.position_lt {s : State} (h : EngineInv s) : s.position < frameTicks := by
  have h1 := h.hcount_lt
  have h2 := h.vcount_lt
  simp only [State.position, frameTicks, Config.hTotal, Config.vTotal] at *
  omega

/-- The counters are the position. -/
theorem EngineInv.counts {s : State} (h : EngineInv s) :
    s.tim.vcount = s.position / Config.hTotal ∧ s.tim.hcount = s.position % Config.hTotal := by
  have h1 := h.hcount_lt
  simp only [State.position, Config.hTotal] at *
  omega

/-- The VRAM port in terms of the position (R358). -/
theorem EngineInv.vramBusy_iff {s : State} (h : EngineInv s) :
    s.vramBusy = true ↔ (s.position % Config.hTotal < Config.hVisEnd ∨ Config.hEarly ≤ s.position % Config.hTotal) ∧
      s.position / Config.hTotal < Config.vVisEnd := by
  rw [State.vramBusy, Bool.and_eq_true, h.hbusy, h.vbusy, ← h.counts.1, ← h.counts.2]

/-- Vertical blank in terms of the position. -/
theorem EngineInv.vblank_iff {s : State} (h : EngineInv s) :
    s.tim.vblank = true ↔ Config.vVisEnd * Config.hTotal ≤ s.position := by
  have h1 := h.hcount_lt
  rw [h.vblank, h.vborder]
  simp only [State.position, Config.hTotal, Config.vVisEnd] at *
  omega

/-! ### The clocks -/

theorem timingInv_of_eq {s u : State} (h : TimingInv s) (ht : u.tim = s.tim) (hr : u.raster = s.raster) (hp : u.pixelClock = s.pixelClock)
    (hc : s.cpuCycles ≤ u.cpuCycles) : TimingInv u :=
  { toEngineInv := engineInv_of_eq h.toEngineInv ht hr
    clock := by
      have := h.clock
      simp only [tickGoal, Config.clkNum, Config.clkDen] at *
      omega
    count := by rw [hp, h.count, State.position, State.position, ht] }

theorem timingInv_ticks {s : State} (h : TimingInv s) {n : Nat} (hn : s.pixelClock + n ≤ tickGoal s.cpuCycles) : TimingInv (ticks n s) := by
  induction n generalizing s with
  | zero => exact h
  | succ n ih =>
    have hc := h.count
    refine ih (s := countedTick s)
      { toEngineInv := engineInv_countedTick h.toEngineInv, clock := ?_, count := ?_ } ?_
    · rw [countedTick_pixelClock, (engineFrame_countedTick s).cpuCycles]; omega
    · rw [countedTick_pixelClock, countedTick_position, tick_position h.toEngineInv, ← hc, Nat.mod_add_mod]
    · rw [countedTick_pixelClock, (engineFrame_countedTick s).cpuCycles]; omega

theorem timingInv_advance {s : State} (h : TimingInv s) : TimingInv (advance s) :=
  timingInv_ticks h (by have := h.clock; omega)

theorem timingInv_addCycles {s : State} (h : TimingInv s) (n : Nat) : TimingInv (s.addCycles n) :=
  timingInv_of_eq h rfl rfl rfl (by simp)

theorem timingInv_cycle {s : State} (h : TimingInv s) : TimingInv (cycle s) := timingInv_advance (timingInv_addCycles h 1)

theorem timingInv_iterate_cycle {s : State} (h : TimingInv s) (n : Nat) : TimingInv (cycle^[n] s) := by
  induction n with
  | zero => exact h
  | succ n ih => rw [Function.iterate_succ_apply']; exact timingInv_cycle ih

/-- After `Advance` the engine is caught up. -/
theorem caughtUp_advance {s : State} (h : s.pixelClock ≤ tickGoal s.cpuCycles) : (advance s).caughtUp := by
  simp only [State.caughtUp, advance_pixelClock, advance_cpuCycles]; omega

theorem caughtUp_cycle {s : State} (h : s.pixelClock ≤ tickGoal s.cpuCycles) : (cycle s).caughtUp :=
  caughtUp_advance (by simp only [addCycles_pixelClock, addCycles_cpuCycles, tickGoal, Config.clkNum, Config.clkDen] at *; omega)

/-- The position of a caught-up engine is a function of the cycle count (R355). -/
theorem TimingInv.position_of_caughtUp {s : State} (h : TimingInv s) (hc : s.caughtUp) :
    s.position = tickGoal s.cpuCycles % frameTicks := by
  rw [← h.count, hc]

end Sys2Proof.Machine
end

