-- ==== Sys2Proof/Laws/Form.lean ====
section
/-! SUPPORT. Ticks, `Advance` and charged cycles keep the canonical form of every memory and of every framebuffer. -/

namespace Sys2Proof.Machine

/-- The form depends on the memories, the framebuffer and the frames handed out. -/
theorem memWf_of_eq {s u : State} (h : s.memWf) (hm : u.mem = s.mem) (hf : u.raster.fb = s.raster.fb) (ho : u.framesOut = s.framesOut) :
    u.memWf := by
  unfold State.memWf at *
  rw [hm, hf, ho]; exact h

/-- Drawing keeps the form. -/
theorem memWf_drawPixel {s : State} (h : s.memWf) : (drawPixel s).memWf := by
  refine ⟨by rw [drawPixel_mem]; exact h.1, ?_, by rw [drawPixel_framesOut]; exact h.2.2⟩
  rw [drawPixel_fb]
  split
  · rename_i hc; exact frame_wf_fbWrite h.2.1 hc.2.1 hc.2.2 _
  · exact h.2.1

/-- A tick keeps the form. -/
theorem memWf_tick {s : State} (h : s.memWf) : (tick s).memWf := by
  have h1 : (pixelStage s).memWf := by
    unfold pixelStage pixelOut
    exact memWf_drawPixel (memWf_of_eq h (by simp) (by simp) (by simp))
  have h2 : (hAdvance (pixelStage s)).memWf :=
    memWf_of_eq h1 (engineFrame_hAdvance _).mem (by rw [hAdvance_raster]; split <;> rfl) (hAdvance_framesOut _)
  by_cases hl : s.tim.hcount + 1 = Config.hTotal
  · rw [tick_of_eq hl]
    refine ⟨by rw [(engineFrame_lineEnd _).mem]; exact h2.1, by rw [lineEnd_raster]; exact h2.2.1, ?_⟩
    rw [lineEnd_framesOut]
    split
    · intro f hf
      rcases List.mem_append.mp hf with hf | hf
      · exact h2.2.2 f hf
      · rw [List.mem_singleton.mp hf]; exact h2.2.1
    · exact h2.2.2
  · rw [tick_of_lt hl]; exact h2

theorem memWf_ticks {s : State} (h : s.memWf) (n : Nat) : (ticks n s).memWf := by
  induction n generalizing s with
  | zero => exact h
  | succ n ih => exact ih (memWf_of_eq (memWf_tick h) rfl rfl rfl)

theorem memWf_advance {s : State} (h : s.memWf) : (advance s).memWf := memWf_ticks h _

theorem memWf_cycle {s : State} (h : s.memWf) : (cycle s).memWf := memWf_advance (memWf_of_eq h rfl rfl rfl)

theorem memWf_iterate_cycle {s : State} (h : s.memWf) (n : Nat) : (cycle^[n] s).memWf := by
  induction n with
  | zero => exact h
  | succ n ih => rw [Function.iterate_succ_apply']; exact memWf_cycle ih

/-- Reset as an operation keeps the form. -/
theorem memWf_applyReset {s : State} (h : s.memWf) : (applyReset s).memWf := ⟨h.1, h.2.1, fun f hf => by cases hf⟩

end Sys2Proof.Machine
end

