-- ==== Sys2Proof/Laws/Stalls.lean ====
section
/-! SUPPORT. The stalls: what a wait loop can do, and when it ends. -/

namespace Sys2Proof.Machine

/-- All a wait loop can do: the least number of whole cycles after which the condition is false. -/
theorem stallWhile_eq_some {busy : State → Bool} {n : Nat} {s t : State} (h : stallWhile busy n s = some t) :
    ∃ k ≤ n, t = cycle^[k] s ∧ busy t = false ∧ ∀ j < k, busy (cycle^[j] s) = true := by
  induction n generalizing s with
  | zero =>
    unfold stallWhile at h
    split at h
    · cases h
    · cases h; exact ⟨0, Nat.le_refl _, rfl, Bool.eq_false_iff.mpr ‹_›, fun j hj => absurd hj (Nat.not_lt_zero _)⟩
  | succ n ih =>
    unfold stallWhile at h
    split at h
    · obtain ⟨k, hk, e, hb, hj⟩ := ih h
      refine ⟨k + 1, by omega, by rw [e, Function.iterate_succ_apply], hb, fun j hjk => ?_⟩
      cases j with
      | zero => assumption
      | succ j => rw [Function.iterate_succ_apply]; exact hj j (by omega)
    · cases h; exact ⟨0, Nat.zero_le _, rfl, Bool.eq_false_iff.mpr ‹_›, fun j hj => absurd hj (Nat.not_lt_zero _)⟩

/-- A wait loop ends if the condition is false after some number of cycles within the bound. -/
theorem stallWhile_isSome {busy : State → Bool} {n k : Nat} {s : State} (hk : k ≤ n) (h : busy (cycle^[k] s) = false) :
    ∃ t, stallWhile busy n s = some t := by
  induction n generalizing s k with
  | zero =>
    obtain rfl : k = 0 := by omega
    exact ⟨s, by simp [stallWhile, show busy s = false from h]⟩
  | succ n ih =>
    unfold stallWhile
    split
    · cases k with
      | zero => simp_all
      | succ k => exact ih (k := k) (by omega) (by rwa [Function.iterate_succ_apply] at h)
    · exact ⟨s, rfl⟩

/-- A wait loop whose condition is false adds nothing. -/
theorem stallWhile_of_false {busy : State → Bool} {s : State} (n : Nat) (h : busy s = false) : stallWhile busy n s = some s := by
  cases n <;> simp [stallWhile, h]

/-- A bound on the wait. -/
theorem stallWhile_le {busy : State → Bool} {n k : Nat} {s : State} (hk : k ≤ n) (h : busy (cycle^[k] s) = false) :
    ∃ j ≤ k, stallWhile busy n s = some (cycle^[j] s) ∧ busy (cycle^[j] s) = false ∧ ∀ i < j, busy (cycle^[i] s) = true := by
  obtain ⟨t, ht⟩ := stallWhile_isSome hk h
  obtain ⟨j, -, e, hb, hj⟩ := stallWhile_eq_some ht
  subst e
  refine ⟨j, ?_, ht, hb, hj⟩
  by_contra hlt
  have := hj k (by omega)
  simp_all

/-- After at least one cycle the engine is caught up; so the position is a function of the cycle count alone. -/
theorem position_iterate_cycle {s : State} (h : TimingInv s) (hc : s.caughtUp) (k : Nat) :
    (cycle^[k] s).position = tickGoal (s.cpuCycles + k) % frameTicks := by
  have hk := iterate_cycle_clocks k s
  have hcu : (cycle^[k] s).caughtUp := by
    unfold State.caughtUp at *
    rw [hk.1, hk.2]
    split
    · simp_all
    · rw [hc]; simp only [tickGoal, Config.clkNum, Config.clkDen]; omega
  rw [(timingInv_iterate_cycle h k).position_of_caughtUp hcu, hk.1]

end Sys2Proof.Machine
end

