-- ==== Sys2Proof/Laws/Unread.lean ====
section
/-! SUPPORT. Updates that no step of a tick reads: a tick and such an update may be exchanged. -/

namespace Sys2Proof.Machine

/-- An update of fields that no step of a tick reads (R289), and that commutes with what the steps write. -/
structure Unread (g : State → State) : Prop where
  tim : ∀ s, (g s).tim = s.tim
  pipe : ∀ s, (g s).pipe = s.pipe
  raster : ∀ s, (g s).raster = s.raster
  framesOut : ∀ s, (g s).framesOut = s.framesOut
  attr16 : ∀ s, (g s).attr16 = s.attr16
  bpp4 : ∀ s, (g s).bpp4 = s.bpp4
  ntsize : ∀ s, (g s).video.ntsize = s.video.ntsize
  ntbase : ∀ s, (g s).video.ntbase = s.video.ntbase
  scrh : ∀ s, (g s).video.scrh = s.video.scrh
  scrv : ∀ s, (g s).video.scrv = s.video.scrv
  scrvf : ∀ s, (g s).video.scrvf = s.video.scrvf
  vram : ∀ s a, (g s).peek .vram a = s.peek .vram a
  pal : ∀ s a, (g s).peek .pal a = s.peek .pal a
  setPipe : ∀ s x, g (s.setPipe x) = (g s).setPipe x
  setTim : ∀ s x, g (s.setTim x) = (g s).setTim x
  setRaster : ∀ s x, g (s.setRaster x) = (g s).setRaster x
  setFramesOut : ∀ s x, g (s.setFramesOut x) = (g s).setFramesOut x
  raiseVsync : ∀ s, g (raiseVsync s) = raiseVsync (g s)

/-- A conditional action and an update that its action may be exchanged with. -/
theorem onCount_comm {g act : State → State} (h : ∀ s, act (g s) = g (act s)) (c k : Nat) (s : State) :
    onCount c k act (g s) = g (onCount c k act s) := by
  unfold onCount; split
  · exact h s
  · rfl

section Parts
variable {g : State → State} (hg : Unread g)
include hg

theorem Unread.vramBusy (s : State) : (g s).vramBusy = s.vramBusy := by simp only [State.vramBusy, hg.tim]

theorem Unread.ntWidth (s : State) : (g s).ntWidth = s.ntWidth := by simp only [State.ntWidth, hg.ntsize]

theorem Unread.ntHeight (s : State) : (g s).ntHeight = s.ntHeight := by simp only [State.ntHeight, hg.ntsize]

theorem Unread.ntAddr (s : State) : (g s).ntAddr = s.ntAddr := by simp only [State.ntAddr, hg.ntbase, hg.tim, hg.ntWidth]

theorem Unread.gfxAddr (s : State) (k : BitVec 1) : (g s).gfxAddr k = s.gfxAddr k := by
  simp only [State.gfxAddr, State.tileHi, hg.attr16, hg.pipe, hg.tim]

theorem Unread.vramRead (s : State) (a : Nat) : (g s).vramRead a = s.vramRead a := hg.vram s _

theorem Unread.fetch (p : BitVec 3) (s : State) : fetch p (g s) = g (fetch p s) := by
  unfold Machine.fetch
  split
  · unfold fetchName; rw [hg.vramBusy]; split
    · rw [hg.setPipe, hg.pipe, hg.vramRead, hg.ntAddr]
    · rfl
  · unfold fetchAttr; rw [hg.vramBusy]; split
    · rw [hg.setPipe, hg.pipe, hg.vramRead, hg.ntAddr]
    · rfl
  · unfold fetchGfx0; rw [hg.vramBusy]; split
    · rw [hg.setPipe, hg.pipe, hg.vramRead, hg.gfxAddr]
    · rfl
  · unfold fetchGfx1; rw [hg.vramBusy]; split
    · rw [hg.setPipe, hg.pipe, hg.vramRead, hg.gfxAddr]
    · rfl
  · rfl

theorem Unread.shiftLoad (p : BitVec 3) (s : State) : shiftLoad p (g s) = g (shiftLoad p s) := by
  have h : ∀ s, shiftPixels (g s) = g (shiftPixels s) := fun s => by rw [shiftPixels, shiftPixels, hg.setPipe, hg.pipe]
  unfold Machine.shiftLoad
  split
  · rw [h, loadShiftLo, loadShiftLo, hg.setPipe, hg.pipe]
  · rw [h, loadShiftHi, loadShiftHi, hg.setPipe, hg.pipe]
  · exact h s

theorem Unread.latchPixel (p : BitVec 3) (s : State) : latchPixel p (g s) = g (latchPixel p s) := by
  have h1 : (g s).pixPeriod = s.pixPeriod := by simp only [State.pixPeriod, hg.bpp4]
  have h2 : (g s).topPixel = s.topPixel := by simp only [State.topPixel, hg.bpp4, hg.pipe]
  unfold Machine.latchPixel
  rw [h1]
  split
  · rw [hg.setPipe, hg.pipe, h2]
  · rfl

theorem Unread.drawPixel (s : State) : drawPixel (g s) = g (drawPixel s) := by
  have h1 : (g s).palIndex = s.palIndex := by simp only [State.palIndex, hg.attr16, hg.bpp4, hg.pipe]
  have h2 : (g s).pixelColour = s.pixelColour := by simp only [State.pixelColour, State.palRead, h1, hg.pal]
  unfold Machine.drawPixel
  rw [hg.tim]
  split
  · rw [hg.setRaster, hg.raster, h2]
  · rfl

theorem Unread.hAdvance (s : State) : hAdvance (g s) = g (hAdvance s) := by
  have h1 : hCount (g s) = g (hCount s) := by rw [hCount, hCount, hg.setTim, hg.tim, hg.ntWidth]
  have a1 : ∀ s, atHVisEnd (g s) = g (atHVisEnd s) := fun s => by rw [atHVisEnd, atHVisEnd, hg.setTim, hg.tim]
  have b1 : ∀ s, earlyRow (g s) = g (earlyRow s) := fun s => by simp only [earlyRow, hg.setTim, hg.tim, hg.ntHeight]
  have b2 : ∀ s, earlyColumn (g s) = g (earlyColumn s) := fun s => by rw [earlyColumn, earlyColumn, hg.setTim, hg.tim, hg.ntWidth, hg.scrh]
  have b3 : ∀ s, earlyCursor (g s) = g (earlyCursor s) := fun s => by
    rw [earlyCursor, earlyCursor, hg.setTim, hg.setRaster, hg.tim, hg.raster]
  have b4 : ∀ s, earlyLatches (g s) = g (earlyLatches s) := fun s => by rw [earlyLatches, earlyLatches, hg.setPipe]
  have a2 : ∀ s, atHEarly (g s) = g (atHEarly s) := fun s => by rw [atHEarly, atHEarly, b1, b2, b3, b4]
  unfold Machine.hAdvance hThresholds
  simp only [h1, hg.tim, onCount_comm a1, onCount_comm (g := g) (act := atHSyncStart) fun _ => rfl,
    onCount_comm (g := g) (act := atHSyncEnd) fun _ => rfl, onCount_comm a2]

theorem Unread.lineEnd (s : State) : lineEnd (g s) = g (lineEnd s) := by
  have h1 : lineCount (g s) = g (lineCount s) := by rw [lineCount, lineCount, hg.setTim, hg.setRaster, hg.tim, hg.raster]
  have a1 : ∀ s, atVVisEnd (g s) = g (atVVisEnd s) := fun s => by
    simp only [atVVisEnd, State.emitFrame, ← hg.setTim, hg.tim, ← hg.setFramesOut, hg.framesOut, hg.raster]
  have a2 : ∀ s, atVSyncStart (g s) = g (atVSyncStart s) := fun s => (hg.raiseVsync s).symm
  have a3 : ∀ s, atVTotal (g s) = g (atVTotal s) := fun s => by
    simp only [atVTotal, hg.setTim, hg.setRaster, hg.tim, hg.raster, hg.scrv, hg.scrvf, hg.ntHeight]
  unfold Machine.lineEnd vThresholds
  simp only [h1, hg.tim, onCount_comm a1, onCount_comm a2, onCount_comm (g := g) (act := atVSyncEnd) fun _ => rfl, onCount_comm a3]

/-- A tick and the update may be exchanged. -/
theorem Unread.tick (s : State) : tick (g s) = g (tick s) := by
  unfold Machine.tick pixelOut lineEndIfDue
  simp only [hg.tim, hg.fetch, hg.shiftLoad, hg.latchPixel, hg.drawPixel, hg.hAdvance, hg.lineEnd]
  split <;> rfl

end Parts

/-! ### The DMA registers (R22 to R26), which no tick reads -/

theorem unread_setDma (d : DmaRegs) : Unread (fun s => s.setDma d) := by
  have e : ∀ s : State, raiseVsync (s.setDma d) = (raiseVsync s).setDma d := fun s => by
    unfold raiseVsync
    dsimp only
    rw [apply_ite (fun t : State => t.setDma d)]
    rfl
  constructor <;> intros <;> first | rfl | exact (e _).symm

theorem ticks_setDma (n : Nat) (s : State) (d : DmaRegs) : ticks n (s.setDma d) = (ticks n s).setDma d := by
  induction n generalizing s with
  | zero => rfl
  | succ n ih =>
    have h : countedTick (s.setDma d) = (countedTick s).setDma d := by
      unfold countedTick
      rw [(unread_setDma d).tick s]
      rfl
    rw [ticks, ticks, h, ih]

/-- Cycles may be charged before or after the DMA registers are written. -/
theorem cycle_setDma (s : State) (d : DmaRegs) : cycle (s.setDma d) = (cycle s).setDma d := ticks_setDma _ (s.addCycles 1) d

end Sys2Proof.Machine
end

