-- ==== Sys2Proof/Laws/Transfer.lean ====
section
/-! SUPPORT. The DMA engine: what a read and a write of a space can do, what a step can do, and what a transfer is. -/

namespace Sys2Proof.Machine

open Sys2Proof.Config (Region Interlock)

/-! ### Reads and writes -/

/-- A binding depends on the bank registers only. -/
theorem State.bind_congr {s u : State} (hy : u.sys = s.sys) (w : BitVec 2) : u.bind w = s.bind w := by
  unfold State.bind; rw [hy]

/-- A banked read depends on the memories and the bank registers only. -/
theorem State.bankRead_congr {s u : State} (hm : u.mem = s.mem) (hy : u.sys = s.sys) (a : Addr) : u.bankRead a = s.bankRead a := by
  simp only [State.bankRead, State.bind_congr hy, State.peek, hm]

/-- A DMA read depends on the memories and the bank registers only. -/
theorem State.dmaRead_congr {s u : State} (hm : u.mem = s.mem) (hy : u.sys = s.sys) (vram : Bool) (a : Addr) :
    u.dmaRead vram a = s.dmaRead vram a := by
  unfold State.dmaRead State.vramRead
  rw [State.bankRead_congr hm hy]
  simp only [State.peek, hm]

/-- The cell of a DMA write depends on the bank registers only. -/
theorem State.dmaCell_congr {s u : State} (hy : u.sys = s.sys) (vram : Bool) (a : Addr) : u.dmaCell vram a = s.dmaCell vram a := by
  simp only [State.dmaCell, State.bind_congr hy]

/-- All a DMA write can do (R183): write its cell, or nothing where it has none. -/
theorem State.dmaWrite_eq (s : State) (vram : Bool) (a : Addr) (b : Byte) :
    s.dmaWrite vram a b = match s.dmaCell vram a with
      | some (r, x) => s.poke r x b
      | none => s := by
  unfold State.dmaWrite State.dmaCell
  split
  · rfl
  · simp only []
    rcases s.bankWrite_cases a b with ⟨r, hr, hw, e⟩ | ⟨h, e⟩
    · simp [e, hr, hw]
    · rcases h with h | h
      · rw [e]; simp only [h, Option.map_none, ite_self]
      · rw [e]; simp [h]

@[simp] theorem State.store_none (s : State) (v : Byte) : s.store none v = s := rfl
@[simp] theorem State.store_some (s : State) (r : Region) (x : Nat) (v : Byte) : s.store (some (r, x)) v = s.poke r x v := rfl
@[simp] theorem State.store_dma (s : State) (c : Option (Region × Nat)) (v : Byte) : (s.store c v).dma = s.dma := by cases c <;> rfl
@[simp] theorem State.store_video (s : State) (c : Option (Region × Nat)) (v : Byte) : (s.store c v).video = s.video := by
  cases c <;> rfl

/-- A store and a write of the DMA registers may be exchanged. -/
theorem State.store_setDma (s : State) (c : Option (Region × Nat)) (v : Byte) (d : DmaRegs) :
    (s.setDma d).store c v = (s.store c v).setDma d := by
  cases c <;> rfl

/-- A store, read back byte by byte. -/
theorem State.storesOnly_store (s : State) (c : Option (Region × Nat)) (v : Byte) : StoresOnly c v s (s.store c v) := by
  intro r x
  cases c with
  | none => simp
  | some c =>
    obtain ⟨q, y⟩ := c
    simp only [State.store_some, State.peek_poke, Option.some.injEq, Prod.mk.injEq]
    by_cases hq : r = q <;> by_cases hy : x = y <;> simp [hq, hy] <;> (intro e; exact absurd e.symm ‹_›)

/-- All a DMA write can do (R183), as a store. -/
theorem State.dmaWrite_eq_store (s : State) (vram : Bool) (a : Addr) (b : Byte) : s.dmaWrite vram a b = s.store (s.dmaCell vram a) b := by
  rw [State.dmaWrite_eq]; cases s.dmaCell vram a <;> rfl

/-- All a sprite write can do (R53), as a store. -/
theorem State.sprWrite_eq_store (s : State) (i : Nat) (v : Byte) :
    s.sprWrite i v = s.store (if i < Config.sprSize then some (.spr, i) else none) v := by
  unfold State.sprWrite
  split <;> rfl

/-- A DMA write, read back byte by byte. -/
theorem State.peek_dmaWrite (s : State) (vram : Bool) (a : Addr) (b : Byte) (r : Region) (x : Nat) :
    (s.dmaWrite vram a b).peek r x = if s.dmaCell vram a = some (r, x) then b else s.peek r x := by
  rw [State.dmaWrite_eq_store]; exact s.storesOnly_store _ b r x

/-- A DMA write changes the memories only. -/
theorem State.dmaWrite_eq_setMem (s : State) (vram : Bool) (a : Addr) (b : Byte) :
    s.dmaWrite vram a b = s.setMem (s.dmaWrite vram a b).mem := by
  rw [State.dmaWrite_eq]
  split <;> rfl

/-- A DMA write keeps every memory canonical. -/
theorem State.memWf_dmaWrite {s : State} (h : s.memWf) (vram : Bool) (a : Addr) (b : Byte) : (s.dmaWrite vram a b).memWf := by
  unfold State.dmaWrite
  split
  · exact State.memWf_vramWrite h _ b
  · exact State.memWf_bankWrite h a b

/-- The ROM is no cell of a DMA write. -/
theorem State.dmaCell_ne_rom (s : State) (vram : Bool) (a : Addr) (x : Nat) : s.dmaCell vram a ≠ some (.rom, x) := by
  unfold State.dmaCell
  split
  · simp
  · simp only []
    split
    · rename_i hw
      intro h
      obtain ⟨r, hr, e⟩ := Option.map_eq_some_iff.mp h
      cases e
      rw [State.bind_rom_readOnly hr] at hw
      cases hw
    · simp

/-! ### The arbiter and a step -/

/-- All the arbiter can do (R185): the least number of whole cycles after which the port is free, or none where it is not asked. -/
theorem arbitrate_eq_some {pol : Interlock} {touches : Bool} {i : Nat} {s t : State} (h : arbitrate pol touches i s = some t) :
    ∃ k, t = cycle^[k] s ∧ (∀ j < k, (cycle^[j] s).vramBusy = true) ∧
      if touches = true ∧ (pol = .perStep ∨ i = 0) then t.vramBusy = false else k = 0 := by
  unfold arbitrate at h
  split at h
  · obtain ⟨k, -, e, hb, hj⟩ := stallWhile_eq_some h
    exact ⟨k, e, hj, by rw [if_pos ‹_›]; exact hb⟩
  · cases h; exact ⟨0, rfl, fun j hj => absurd hj (Nat.not_lt_zero _), by rw [if_neg ‹_›]⟩

/-- All a step can do (R186). -/
theorem dmaStepWith_eq_some {pol : Interlock} {p : StepPlan} {f : DmaFlags} {i : Nat} {rd wr : State → State} {s t : State}
    (h : dmaStepWith pol p f i rd wr s = some t) :
    ∃ k, t = grantedStep p f rd wr (cycle^[k] s) ∧ (∀ j < k, (cycle^[j] s).vramBusy = true) ∧
      if p.touchesVram = true ∧ (pol = .perStep ∨ i = 0) then (cycle^[k] s).vramBusy = false else k = 0 := by
  obtain ⟨u, hu, e⟩ := Option.map_eq_some_iff.mp h
  obtain ⟨k, rfl, hj, hk⟩ := arbitrate_eq_some hu
  exact ⟨k, e.symm, hj, hk⟩

/-- The step that a control byte selects has the plan of R187 and the phases of its mode. -/
theorem dmaStep_eq (pol : Interlock) (i : Nat) (s : State) :
    ∃ rd wr, dmaStep pol i s = dmaStepWith pol (stepPlan (dmaModeOf s.dma.dctl) (dmaFlagsOf s.dma.dctl)) (dmaFlagsOf s.dma.dctl) i rd wr s ∧
      (rd = readSource (dmaFlagsOf s.dma.dctl) ∨ rd = readSystem ∨ rd = readIdle) ∧
      (wr = writeFill (dmaFlagsOf s.dma.dctl) ∨ wr = writeMasked (dmaFlagsOf s.dma.dctl) ∨ wr = writeApa (dmaFlagsOf s.dma.dctl) ∨
        wr = writePal ∨ wr = writeSpr ∨ wr = writeSprclr ∨ wr = writeAltfill (dmaFlagsOf s.dma.dctl) i) := by
  unfold dmaStep
  simp only []
  cases dmaModeOf s.dma.dctl
  · exact ⟨_, _, rfl, by simp, by simp⟩
  · exact ⟨_, _, rfl, by simp, by simp⟩
  · exact ⟨_, _, rfl, by simp, by simp⟩
  · exact ⟨_, _, rfl, by simp, by simp⟩
  · exact ⟨_, _, rfl, by simp, by simp⟩
  · exact ⟨_, _, rfl, by simp, by simp⟩
  · exact ⟨_, _, rfl, by simp, by simp⟩
  · exact ⟨_, _, rfl, by simp, by simp⟩

/-! ### The phases -/

/-- A phase of a step: it may change the memories and the two latches, nothing else. -/
structure PhaseFrame (s u : State) : Prop where
  cpuCycles : u.cpuCycles = s.cpuCycles
  pixelClock : u.pixelClock = s.pixelClock
  video : u.video = s.video
  dma : u.dma = { s.dma with dfill := u.dma.dfill, dpage := u.dma.dpage }
  sys : u.sys = s.sys
  irq : u.irq = s.irq
  tim : u.tim = s.tim
  pipe : u.pipe = s.pipe
  raster : u.raster = s.raster
  framesOut : u.framesOut = s.framesOut
  readsOut : u.readsOut = s.readsOut
  trace : u.trace = s.trace

theorem PhaseFrame.refl (s : State) : PhaseFrame s s := ⟨rfl, rfl, rfl, rfl, rfl, rfl, rfl, rfl, rfl, rfl, rfl, rfl⟩

theorem PhaseFrame.setMem {s u : State} (h : PhaseFrame s u) (m : Memories) : PhaseFrame s (u.setMem m) := { h with }

theorem phaseFrame_latchPage (s : State) (b : Byte) : PhaseFrame s (s.latchPage b) :=
  ⟨rfl, rfl, rfl, rfl, rfl, rfl, rfl, rfl, rfl, rfl, rfl, rfl⟩

theorem memWf_latchPage {s : State} (h : s.memWf) (b : Byte) : (s.latchPage b).memWf := memWf_of_eq h rfl rfl rfl

theorem phaseFrame_dmaWrite (s : State) (vram : Bool) (a : Addr) (b : Byte) : PhaseFrame s (s.dmaWrite vram a b) := by
  rw [State.dmaWrite_eq_setMem]; exact (PhaseFrame.refl s).setMem _

theorem phaseFrame_sprWrite (s : State) (i : Nat) (v : Byte) : PhaseFrame s (s.sprWrite i v) := by
  unfold State.sprWrite State.poke
  split
  · exact (PhaseFrame.refl s).setMem _
  · exact .refl s

/-- The read phases are phases. -/
theorem phaseFrame_read {f : DmaFlags} {rd : State → State} (h : rd = readSource f ∨ rd = readSystem ∨ rd = readIdle) (s : State) :
    PhaseFrame s (rd s) := by
  rcases h with rfl | rfl | rfl
  · exact { PhaseFrame.refl s with dma := rfl }
  · exact { PhaseFrame.refl s with dma := rfl }
  · exact .refl s

/-- The write phases are phases. -/
theorem phaseFrame_write {f : DmaFlags} {i : Nat} {wr : State → State}
    (h : wr = writeFill f ∨ wr = writeMasked f ∨ wr = writeApa f ∨ wr = writePal ∨ wr = writeSpr ∨ wr = writeSprclr ∨ wr = writeAltfill f i)
    (s : State) : PhaseFrame s (wr s) := by
  rcases h with rfl | rfl | rfl | rfl | rfl | rfl | rfl
  · exact phaseFrame_dmaWrite ..
  · unfold writeMasked
    split
    · exact .refl s
    · exact phaseFrame_dmaWrite ..
  · unfold writeApa
    simp only []
    rw [State.dmaWrite_eq_setMem]
    exact (phaseFrame_latchPage s _).setMem _
  · exact (PhaseFrame.refl s).setMem _
  · exact phaseFrame_sprWrite ..
  · exact phaseFrame_sprWrite ..
  · exact phaseFrame_dmaWrite ..

/-- The read phases change no memory. -/
theorem read_mem {f : DmaFlags} {rd : State → State} (h : rd = readSource f ∨ rd = readSystem ∨ rd = readIdle) (s : State) :
    (rd s).mem = s.mem := by
  rcases h with rfl | rfl | rfl <;> rfl

/-- The write phases keep every memory canonical. -/
theorem memWf_write {f : DmaFlags} {i : Nat} {wr : State → State}
    (h : wr = writeFill f ∨ wr = writeMasked f ∨ wr = writeApa f ∨ wr = writePal ∨ wr = writeSpr ∨ wr = writeSprclr ∨ wr = writeAltfill f i)
    {s : State} (hs : s.memWf) : (wr s).memWf := by
  rcases h with rfl | rfl | rfl | rfl | rfl | rfl | rfl
  · exact State.memWf_dmaWrite hs ..
  · unfold writeMasked
    split
    · exact hs
    · exact State.memWf_dmaWrite hs ..
  · exact State.memWf_dmaWrite (memWf_latchPage hs (s.dmaRead f.dstv (pixelSlot s.bpp4 s.dma.ddst).byteAddr)) ..
  · exact State.memWf_palWrite hs ..
  · exact State.memWf_sprWrite hs ..
  · exact State.memWf_sprWrite hs ..
  · exact State.memWf_dmaWrite hs ..

/-! ### A granted step -/

section Granted
variable {p : StepPlan} {f : DmaFlags} {rd wr : State → State} (hr : ∀ s, PhaseFrame s (rd s)) (hw : ∀ s, PhaseFrame s (wr s))
include hr hw

theorem grantedStep_cpuCycles (s : State) : (grantedStep p f rd wr s).cpuCycles = s.cpuCycles + 2 := by
  simp [grantedStep, stepCounters, (hr s).cpuCycles, (hw _).cpuCycles]

theorem grantedStep_pixelClock (s : State) : (grantedStep p f rd wr s).pixelClock = max s.pixelClock (tickGoal (s.cpuCycles + 2)) := by
  simp only [grantedStep, stepCounters, State.setDma_pixelClock, cycle_pixelClock, cycle_cpuCycles, (hr s).cpuCycles, (hw _).cpuCycles,
    (hr s).pixelClock, (hw _).pixelClock]
  simp only [tickGoal, Config.clkNum, Config.clkDen]; omega

theorem grantedStep_sys (s : State) : (grantedStep p f rd wr s).sys = s.sys := by
  simp [grantedStep, stepCounters, (hr s).sys, (hw _).sys]

theorem grantedStep_readsOut (s : State) : (grantedStep p f rd wr s).readsOut = s.readsOut := by
  simp [grantedStep, stepCounters, (hr s).readsOut, (hw _).readsOut]

theorem grantedStep_trace (s : State) : (grantedStep p f rd wr s).trace = s.trace := by
  simp [grantedStep, stepCounters, (hr s).trace, (hw _).trace]

theorem grantedStep_video (s : State) :
    (grantedStep p f rd wr s).video = { s.video with vsta := (grantedStep p f rd wr s).video.vsta } := by
  simp only [grantedStep, stepCounters, State.setDma_video]
  rw [cycle_video, (hw _).video, cycle_video, (hr s).video]

/-- The counters after a step (R186), the latches apart. -/
theorem grantedStep_counters (s : State) :
    (grantedStep p f rd wr s).dma.dctl = s.dma.dctl ∧ (grantedStep p f rd wr s).dma.drun = s.dma.drun - 1 ∧
      (grantedStep p f rd wr s).dma.dsrc = (if p.readsSrc then s.dma.dsrc + s.dmaInc f else s.dma.dsrc) ∧
      (grantedStep p f rd wr s).dma.ddst = s.dma.ddst + (if p.stride4 then 4 else s.dmaInc f) := by
  have e : (cycle (wr (cycle (rd s)))).dma =
      { s.dma with dfill := (wr (cycle (rd s))).dma.dfill, dpage := (wr (cycle (rd s))).dma.dpage } := by
    rw [cycle_dma, (hw _).dma, cycle_dma, (hr s).dma]
  have i : (cycle (wr (cycle (rd s)))).dmaInc f = s.dmaInc f := by
    simp only [State.dmaInc, State.ntWidth, cycle_ntsize, (hw _).video, (hr s).video]
  simp only [grantedStep, stepCounters, State.setDma_dma, i, e, and_self]

/-- The engine's invariants through a step. -/
theorem timingInv_grantedStep {s : State} (h : TimingInv s) : TimingInv (grantedStep p f rd wr s) := by
  have h1 : TimingInv (rd s) := timingInv_of_eq h (hr s).tim (hr s).raster (hr s).pixelClock (hr s).cpuCycles.ge
  have h2 := timingInv_cycle h1
  have h3 : TimingInv (wr (cycle (rd s))) := timingInv_of_eq h2 (hw _).tim (hw _).raster (hw _).pixelClock (hw _).cpuCycles.ge
  exact timingInv_of_eq (timingInv_cycle h3) rfl rfl rfl (Nat.le_refl _)

end Granted

/-! ### The write phases as one store, and the latches -/

section WritePhase
variable (f : DmaFlags) (i : Nat) (s : State) (d : DmaRegs)

theorem writeFill_setDma : writeFill f (s.setDma d) = (s.store (s.dmaCell f.dstv d.ddst) d.dfill).setDma d := by
  unfold writeFill; rw [State.dmaWrite_eq_store, State.store_setDma]; rfl

theorem writeMasked_setDma :
    writeMasked f (s.setDma d) = (s.store (if d.dfill = 0 then none else s.dmaCell f.dstv d.ddst) d.dfill).setDma d := by
  simp only [writeMasked, writeFill_setDma, State.setDma_dma]
  by_cases h : d.dfill = 0
  · rw [if_pos h, if_pos h, State.store_none]
  · rw [if_neg h, if_neg h]

theorem writeApa_setDma {a : Addr} {b : Byte} (ha : (pixelSlot s.bpp4 d.ddst).byteAddr = a) (hb : s.dmaRead f.dstv a = b) :
    writeApa f (s.setDma d) =
      (s.store (s.dmaCell f.dstv a) (mergePixel (pixelSlot s.bpp4 d.ddst) b d.dfill)).setDma { d with dpage := b } := by
  subst ha hb
  unfold writeApa; simp only []; rw [State.dmaWrite_eq_store, State.latchPage, State.store_setDma, State.store_setDma]; rfl

theorem writePal_setDma : writePal (s.setDma d) = (s.store (some (.pal, d.ddst.toNat % Config.palSize)) d.dfill).setDma d := rfl

theorem writeSpr_setDma :
    writeSpr (s.setDma d) =
      (s.store (if d.ddst.toNat < Config.sprSize then some (.spr, d.ddst.toNat) else none) d.dfill).setDma d := by
  rw [← State.store_setDma]; exact State.sprWrite_eq_store _ d.ddst.toNat d.dfill

theorem writeSprclr_setDma :
    writeSprclr (s.setDma d) =
      (s.store (if d.ddst.toNat < Config.sprSize then some (.spr, d.ddst.toNat) else none) Config.spriteClearValue).setDma d := by
  rw [← State.store_setDma]; exact State.sprWrite_eq_store _ d.ddst.toNat Config.spriteClearValue

theorem writeAltfill_setDma :
    writeAltfill f i (s.setDma d) =
      (s.store (s.dmaCell f.dstv d.ddst) (if i % 2 = 0 then d.dfill else d.dpage)).setDma d := by
  unfold writeAltfill; rw [State.dmaWrite_eq_store, State.store_setDma]; rfl

end WritePhase

/-- A granted step whose read phase loads the DMA registers and whose write phase is one store: the store stands between its two
cycles, and the registers need no cycle to be run (R71, R184, R186). -/
theorem grantedStep_eq_store {p : StepPlan} {f : DmaFlags} {rd wr : State → State} {s : State} {d e : DmaRegs}
    {cell : Option (Region × Nat)} {v : Byte} (hr : rd s = s.setDma d)
    (hw : wr ((cycle s).setDma d) = ((cycle s).store cell v).setDma e) :
    grantedStep p f rd wr s = stepCounters p f ((cycle ((cycle s).store cell v)).setDma e) := by
  rw [grantedStep, hr, cycle_setDma, hw, cycle_setDma]

/-! ### A transfer -/

/-- A transfer of `n` steps is one step and a transfer of the rest. -/
theorem dmaLoop_succ (pol : Interlock) (n i : Nat) (s : State) :
    dmaLoop pol (n + 1) i s = (dmaStep pol i s).bind (dmaLoop pol n (i + 1)) := rfl

/-- A property that every step keeps holds after a transfer. -/
theorem dmaLoop_induction {pol : Interlock} {P : State → Prop} (hstep : ∀ i s t, P s → dmaStep pol i s = some t → P t)
    {n i : Nat} {s t : State} (hs : P s) (h : dmaLoop pol n i s = some t) : P t := by
  induction n generalizing i s with
  | zero => cases h; exact hs
  | succ n ih =>
    obtain ⟨u, hu, ht⟩ := Option.bind_eq_some_iff.mp h
    exact ih (hstep i s u hs hu) ht

/-- A transfer completes if every step from a state with a kept property does. -/
theorem dmaLoop_isSome {pol : Interlock} {P : State → Prop} (hstep : ∀ i s, P s → ∃ t, dmaStep pol i s = some t ∧ P t)
    {n i : Nat} {s : State} (hs : P s) : ∃ t, dmaLoop pol n i s = some t ∧ P t := by
  induction n generalizing i s with
  | zero => exact ⟨s, rfl, hs⟩
  | succ n ih =>
    obtain ⟨u, hu, hp⟩ := hstep i s hs
    obtain ⟨t, ht, hq⟩ := ih (i := i + 1) hp
    exact ⟨t, by rw [dmaLoop_succ, hu]; exact ht, hq⟩

end Sys2Proof.Machine
end

