-- ==== Sys2Proof/Laws/Bus.lean ====
section
/-! SUPPORT. The shape of every I/O access: one equation for a read, one for a write that charges no cycle, one for a stalling write. -/

namespace Sys2Proof.Machine

/-- An I/O read (R110). -/
theorem ioRead_eq (value : State → Byte) (effect : State → State) (s : State) :
    ioRead value effect s = .next ((effect (advance s)).returned (value (advance s))) := rfl

/-- An I/O write that moves no clock: the second `Advance` runs no tick (R111, R221). -/
theorem ioWrite_eq {effect : State → State} (hc : ∀ u, (effect u).cpuCycles = u.cpuCycles) (hp : ∀ u, (effect u).pixelClock = u.pixelClock)
    (s : State) : ioWrite effect s = .next (effect (advance s)) := by
  unfold ioWrite
  rw [advance_of_caughtUp]
  rw [hc, hp]
  exact tickGoal_le_advance s

/-- An I/O write that may stall, when its effect leaves the engine caught up (R111, R221). -/
theorem ioWriteStall_eq {effect : State → Option State} {s t : State} (h : effect (advance s) = some t)
    (hc : tickGoal t.cpuCycles ≤ t.pixelClock) : ioWriteStall effect s = .next t := by
  unfold ioWriteStall
  rw [h, Option.map_some, advance_of_caughtUp hc]
  rfl

/-- All a stalling write can answer. -/
theorem ioWriteStall_cases (effect : State → Option State) (s : State) :
    (∃ t, effect (advance s) = some t ∧ ioWriteStall effect s = .next (advance t)) ∨
      (effect (advance s) = none ∧ ioWriteStall effect s = .fault .stalled) := by
  unfold ioWriteStall
  cases h : effect (advance s) with
  | none => exact .inr ⟨rfl, rfl⟩
  | some t => exact .inl ⟨t, rfl, rfl⟩

section Returned
variable (s : State) (v : Byte)
@[simp] theorem returned_cpuCycles : (s.returned v).cpuCycles = s.cpuCycles := rfl
@[simp] theorem returned_pixelClock : (s.returned v).pixelClock = s.pixelClock := rfl
@[simp] theorem returned_mem : (s.returned v).mem = s.mem := rfl
@[simp] theorem returned_video : (s.returned v).video = s.video := rfl
@[simp] theorem returned_dma : (s.returned v).dma = s.dma := rfl
@[simp] theorem returned_sys : (s.returned v).sys = s.sys := rfl
@[simp] theorem returned_irq : (s.returned v).irq = s.irq := rfl
@[simp] theorem returned_tim : (s.returned v).tim = s.tim := rfl
@[simp] theorem returned_pipe : (s.returned v).pipe = s.pipe := rfl
@[simp] theorem returned_raster : (s.returned v).raster = s.raster := rfl
@[simp] theorem returned_framesOut : (s.returned v).framesOut = s.framesOut := rfl
@[simp] theorem returned_readsOut : (s.returned v).readsOut = s.readsOut ++ [v] := rfl
@[simp] theorem returned_trace : (s.returned v).trace = s.trace := rfl
end Returned

/-! ### A step of a run -/

/-- A step with an operation pending. -/
theorem step_of_trace {s : State} {w : Selector} {rest : List Selector} {i : Instr} (ht : s.trace = w :: rest) (hd : decode w = .instr i) :
    step s = exec i (s.setTrace rest) := by
  unfold step; rw [ht]; simp [hd]

/-- All a step can do when it answers a next state. -/
theorem step_eq_next {s t : State} (h : step s = .next t) :
    ∃ w rest i, s.trace = w :: rest ∧ decode w = .instr i ∧ exec i (s.setTrace rest) = .next t := by
  unfold step at h
  split at h
  · cases h
  · rename_i w rest ht
    split at h
    · rename_i i hd; exact ⟨w, rest, i, ht, hd, h⟩
    · cases h

end Sys2Proof.Machine
end

