-- ==== Sys2Proof/Laws/Events.lean ====
section
/-! SUPPORT. What an event of the CPU collaborator can do, once for all of them: count cycles, run the ticks due, access a register
after the ticks due, access a byte without a tick, wait, or run a transfer. -/

namespace Sys2Proof.Machine

open Sys2Proof.Config (Interlock)

set_option maxRecDepth 2000

/-- The clocks, the timing engine, the pipeline, the pictures and the pending operations are the same. -/
structure EngineSame (s u : State) : Prop where
  cpuCycles : u.cpuCycles = s.cpuCycles
  pixelClock : u.pixelClock = s.pixelClock
  tim : u.tim = s.tim
  pipe : u.pipe = s.pipe
  raster : u.raster = s.raster
  framesOut : u.framesOut = s.framesOut
  trace : u.trace = s.trace

theorem EngineSame.refl (s : State) : EngineSame s s := ⟨rfl, rfl, rfl, rfl, rfl, rfl, rfl⟩

theorem EngineSame.trans {s u w : State} (h : EngineSame s u) (k : EngineSame u w) : EngineSame s w :=
  ⟨k.cpuCycles.trans h.cpuCycles, k.pixelClock.trans h.pixelClock, k.tim.trans h.tim, k.pipe.trans h.pipe, k.raster.trans h.raster,
    k.framesOut.trans h.framesOut, k.trace.trans h.trace⟩

theorem engineSame_setVideo (s : State) (x : VideoRegs) : EngineSame s (s.setVideo x) := ⟨rfl, rfl, rfl, rfl, rfl, rfl, rfl⟩
theorem engineSame_setDma (s : State) (x : DmaRegs) : EngineSame s (s.setDma x) := ⟨rfl, rfl, rfl, rfl, rfl, rfl, rfl⟩
theorem engineSame_setSys (s : State) (x : SysRegs) : EngineSame s (s.setSys x) := ⟨rfl, rfl, rfl, rfl, rfl, rfl, rfl⟩
theorem engineSame_setMem (s : State) (x : Memories) : EngineSame s (s.setMem x) := ⟨rfl, rfl, rfl, rfl, rfl, rfl, rfl⟩
theorem engineSame_returned (s : State) (v : Byte) : EngineSame s (s.returned v) := ⟨rfl, rfl, rfl, rfl, rfl, rfl, rfl⟩

theorem engineSame_ackStatus (v : Byte) (s : State) : EngineSame s (ackStatus v s) := by
  unfold ackStatus; dsimp only; split <;> exact ⟨rfl, rfl, rfl, rfl, rfl, rfl, rfl⟩

theorem engineSame_sprWrite (s : State) (i : Nat) (v : Byte) : EngineSame s (s.sprWrite i v) := by
  unfold State.sprWrite; split
  · exact engineSame_setMem _ _
  · exact .refl s

theorem engineSame_bankWrite (s : State) (a : Addr) (v : Byte) : EngineSame s (s.bankWrite a v) := by
  unfold State.bankWrite; dsimp only; split
  · exact .refl s
  · split
    · exact engineSame_setMem _ _
    · exact .refl s

/-- The outcome of a register access: the ticks due, and then nothing of the engine. -/
abbrev AfterTicks (s : State) (r : Result) : Prop := ∃ u, EngineSame (advance s) u ∧ r = .next u

/-- A register read (R110, R112). -/
theorem ioRead_same {value : State → Byte} {effect : State → State} (h : ∀ u, EngineSame u (effect u)) (s : State) :
    AfterTicks s (ioRead value effect s) :=
  ⟨_, (h _).trans (engineSame_returned _ _), rfl⟩

/-- A register write that charges no cycle (R111, R112). -/
theorem ioWrite_same {effect : State → State} (h : ∀ u, EngineSame u (effect u)) (s : State) :
    AfterTicks s (ioWrite effect s) :=
  ⟨_, h _, ioWrite_eq (fun u => (h u).cpuCycles) (fun u => (h u).pixelClock) s⟩

/-- What an event decodes to is an event (R4, R100). -/
theorem encode_isEvent {w : Selector} {i : Instr} (hd : decode w = .instr i) (hw : w.isEvent = true) : (encode i).isEvent = true := by
  cases w with
  | cyc n => cases hd; rfl
  | sync => cases hd; rfl
  | rd a =>
    cases hd; unfold decodeRead; split
    · unfold decodeIoRead; split <;> (try split_ifs) <;> rfl
    · unfold decodeBankRead; split <;> rfl
  | wr a v =>
    cases hd; unfold decodeWrite; split
    · unfold decodeIoWrite; split <;> (try split_ifs) <;> rfl
    · unfold decodeBankWrite; split <;> rfl
  | dctl b i => cases hw
  | fetchSlot p => cases hw
  | loadSlot p => cases hw
  | hcount h k => cases hw
  | vcount v => cases hw

/-- All an operation of the CPU collaborator can do to the engine. The last two are `VWAIT` and `DRUN`. -/
theorem exec_event (i : Instr) (s : State) :
    (encode i).isEvent = false ∨ (∃ n, i = .cycN n ∧ exec i s = .next (s.addCycles n)) ∨ exec i s = .next (advance s) ∨
      AfterTicks s (exec i s) ∨ (∃ u, EngineSame s u ∧ exec i s = .next u) ∨
      (∃ v, i = .wrVwait v) ∨ ∃ v, i = .wrDrun v :=
  match i with
  | .rdVctl => .inr (.inr (.inr (.inl (show AfterTicks s (execRdVctl s) from ioRead_same (fun _ => EngineSame.refl _) s))))
  | .wrVctl v => .inr (.inr (.inr (.inl (show AfterTicks s (execWrVctl v s) from ioWrite_same (fun _ => engineSame_setVideo _ _) s))))
  | .rdVena => .inr (.inr (.inr (.inl (show AfterTicks s (execRdVena s) from ioRead_same (fun _ => EngineSame.refl _) s))))
  | .wrVena v => .inr (.inr (.inr (.inl (show AfterTicks s (execWrVena v s) from ioWrite_same (fun _ => engineSame_setVideo _ _) s))))
  | .rdVsta => .inr (.inr (.inr (.inl (show AfterTicks s (execRdVsta s) from ioRead_same (fun _ => EngineSame.refl _) s))))
  | .wrVsta v => .inr (.inr (.inr (.inl (show AfterTicks s (execWrVsta v s) from ioWrite_same (fun _ => engineSame_ackStatus v _) s))))
  | .rdVwait => .inr (.inr (.inr (.inl (show AfterTicks s (execRdVwait s) from ioRead_same (fun _ => EngineSame.refl _) s))))
  | .wrVwait _ => .inr (.inr (.inr (.inr (.inr (.inl ⟨_, rfl⟩)))))
  | .rdScrh => .inr (.inr (.inr (.inl (show AfterTicks s (execRdScrh s) from ioRead_same (fun _ => EngineSame.refl _) s))))
  | .wrScrh v => .inr (.inr (.inr (.inl (show AfterTicks s (execWrScrh v s) from ioWrite_same (fun _ => engineSame_setVideo _ _) s))))
  | .rdScrhf => .inr (.inr (.inr (.inl (show AfterTicks s (execRdScrhf s) from ioRead_same (fun _ => EngineSame.refl _) s))))
  | .wrScrhf v => .inr (.inr (.inr (.inl (show AfterTicks s (execWrScrhf v s) from ioWrite_same (fun _ => engineSame_setVideo _ _) s))))
  | .rdScrv => .inr (.inr (.inr (.inl (show AfterTicks s (execRdScrv s) from ioRead_same (fun _ => EngineSame.refl _) s))))
  | .wrScrv v => .inr (.inr (.inr (.inl (show AfterTicks s (execWrScrv v s) from ioWrite_same (fun _ => engineSame_setVideo _ _) s))))
  | .rdScrvf => .inr (.inr (.inr (.inl (show AfterTicks s (execRdScrvf s) from ioRead_same (fun _ => EngineSame.refl _) s))))
  | .wrScrvf v => .inr (.inr (.inr (.inl (show AfterTicks s (execWrScrvf v s) from ioWrite_same (fun _ => engineSame_setVideo _ _) s))))
  | .rdNtsize => .inr (.inr (.inr (.inl (show AfterTicks s (execRdNtsize s) from ioRead_same (fun _ => EngineSame.refl _) s))))
  | .wrNtsize v => .inr (.inr (.inr (.inl (show AfterTicks s (execWrNtsize v s) from ioWrite_same (fun _ => engineSame_setVideo _ _) s))))
  | .rdNtbase => .inr (.inr (.inr (.inl (show AfterTicks s (execRdNtbase s) from ioRead_same (fun _ => EngineSame.refl _) s))))
  | .wrNtbase v => .inr (.inr (.inr (.inl (show AfterTicks s (execWrNtbase v s) from ioWrite_same (fun _ => engineSame_setVideo _ _) s))))
  | .rdPala => .inr (.inr (.inr (.inl (show AfterTicks s (execRdPala s) from ioRead_same (fun _ => EngineSame.refl _) s))))
  | .wrPala v => .inr (.inr (.inr (.inl (show AfterTicks s (execWrPala v s) from ioWrite_same (fun _ => engineSame_setVideo _ _) s))))
  | .rdPald => .inr (.inr (.inr (.inl (show AfterTicks s (execRdPald s) from ioRead_same (fun _ => engineSame_setVideo _ _) s))))
  | .wrPald v => .inr (.inr (.inr (.inl (show AfterTicks s (execWrPald v s) from ioWrite_same (fun _ => (engineSame_setMem _ _).trans (engineSame_setVideo _ _)) s))))
  | .rdSpra => .inr (.inr (.inr (.inl (show AfterTicks s (execRdSpra s) from ioRead_same (fun _ => EngineSame.refl _) s))))
  | .wrSpra v => .inr (.inr (.inr (.inl (show AfterTicks s (execWrSpra v s) from ioWrite_same (fun _ => engineSame_setVideo _ _) s))))
  | .rdSprd => .inr (.inr (.inr (.inl (show AfterTicks s (execRdSprd s) from ioRead_same (fun _ => engineSame_setVideo _ _) s))))
  | .wrSprd v => .inr (.inr (.inr (.inl (show AfterTicks s (execWrSprd v s) from ioWrite_same (fun _ => (engineSame_sprWrite _ _ _).trans (engineSame_setVideo _ _)) s))))
  | .rdDsrcl => .inr (.inr (.inr (.inl (show AfterTicks s (execRdDsrcl s) from ioRead_same (fun _ => EngineSame.refl _) s))))
  | .wrDsrcl v => .inr (.inr (.inr (.inl (show AfterTicks s (execWrDsrcl v s) from ioWrite_same (fun _ => engineSame_setDma _ _) s))))
  | .rdDsrch => .inr (.inr (.inr (.inl (show AfterTicks s (execRdDsrch s) from ioRead_same (fun _ => EngineSame.refl _) s))))
  | .wrDsrch v => .inr (.inr (.inr (.inl (show AfterTicks s (execWrDsrch v s) from ioWrite_same (fun _ => engineSame_setDma _ _) s))))
  | .rdDdstl => .inr (.inr (.inr (.inl (show AfterTicks s (execRdDdstl s) from ioRead_same (fun _ => EngineSame.refl _) s))))
  | .wrDdstl v => .inr (.inr (.inr (.inl (show AfterTicks s (execWrDdstl v s) from ioWrite_same (fun _ => engineSame_setDma _ _) s))))
  | .rdDdsth => .inr (.inr (.inr (.inl (show AfterTicks s (execRdDdsth s) from ioRead_same (fun _ => EngineSame.refl _) s))))
  | .wrDdsth v => .inr (.inr (.inr (.inl (show AfterTicks s (execWrDdsth v s) from ioWrite_same (fun _ => engineSame_setDma _ _) s))))
  | .rdDctl => .inr (.inr (.inr (.inl (show AfterTicks s (execRdDctl s) from ioRead_same (fun _ => EngineSame.refl _) s))))
  | .wrDctl v => .inr (.inr (.inr (.inl (show AfterTicks s (execWrDctl v s) from ioWrite_same (fun _ => engineSame_setDma _ _) s))))
  | .rdDrun => .inr (.inr (.inr (.inl (show AfterTicks s (execRdDrun s) from ioRead_same (fun _ => EngineSame.refl _) s))))
  | .wrDrun _ => .inr (.inr (.inr (.inr (.inr (.inr ⟨_, rfl⟩)))))
  | .rdDfill => .inr (.inr (.inr (.inl (show AfterTicks s (execRdDfill s) from ioRead_same (fun _ => EngineSame.refl _) s))))
  | .wrDfill v => .inr (.inr (.inr (.inl (show AfterTicks s (execWrDfill v s) from ioWrite_same (fun _ => engineSame_setDma _ _) s))))
  | .rdDpage => .inr (.inr (.inr (.inl (show AfterTicks s (execRdDpage s) from ioRead_same (fun _ => EngineSame.refl _) s))))
  | .wrDpage v => .inr (.inr (.inr (.inl (show AfterTicks s (execWrDpage v s) from ioWrite_same (fun _ => engineSame_setDma _ _) s))))
  | .rdBank2 => .inr (.inr (.inr (.inl (show AfterTicks s (execRdBank2 s) from ioRead_same (fun _ => EngineSame.refl _) s))))
  | .wrBank2 v => .inr (.inr (.inr (.inl (show AfterTicks s (execWrBank2 v s) from ioWrite_same (fun _ => engineSame_setSys _ _) s))))
  | .rdBank3 => .inr (.inr (.inr (.inl (show AfterTicks s (execRdBank3 s) from ioRead_same (fun _ => EngineSame.refl _) s))))
  | .wrBank3 v => .inr (.inr (.inr (.inl (show AfterTicks s (execWrBank3 v s) from ioWrite_same (fun _ => engineSame_setSys _ _) s))))
  | .rdKcol => .inr (.inr (.inr (.inl (show AfterTicks s (execRdKcol s) from ioRead_same (fun _ => EngineSame.refl _) s))))
  | .wrKcol v => .inr (.inr (.inr (.inl (show AfterTicks s (execWrKcol v s) from ioWrite_same (fun _ => engineSame_setSys _ _) s))))
  | .rdKdata => .inr (.inr (.inr (.inl (show AfterTicks s (execRdKdata s) from ioRead_same (fun _ => EngineSame.refl _) s))))
  | .wrKdata v => .inr (.inr (.inr (.inl (show AfterTicks s (execWrKdata v s) from ioWrite_same (fun _ => EngineSame.refl _) s))))
  | .rdAudio n => .inr (.inr (.inr (.inl (show AfterTicks s (execRdAudio n s) from ioRead_same (fun _ => EngineSame.refl _) s))))
  | .wrAudio n v => .inr (.inr (.inr (.inl (show AfterTicks s (execWrAudio n v s) from ioWrite_same (fun _ => EngineSame.refl _) s))))
  | .rdUnmappedCE n => .inr (.inr (.inr (.inl (show AfterTicks s (execRdUnmappedCE n s) from ioRead_same (fun _ => EngineSame.refl _) s))))
  | .wrUnmappedCE n v => .inr (.inr (.inr (.inl (show AfterTicks s (execWrUnmappedCE n v s) from ioWrite_same (fun _ => EngineSame.refl _) s))))
  | .rdUnmappedD6 n => .inr (.inr (.inr (.inl (show AfterTicks s (execRdUnmappedD6 n s) from ioRead_same (fun _ => EngineSame.refl _) s))))
  | .wrUnmappedD6 n v => .inr (.inr (.inr (.inl (show AfterTicks s (execWrUnmappedD6 n v s) from ioWrite_same (fun _ => EngineSame.refl _) s))))
  | .rdUnmappedDE n => .inr (.inr (.inr (.inl (show AfterTicks s (execRdUnmappedDE n s) from ioRead_same (fun _ => EngineSame.refl _) s))))
  | .wrUnmappedDE n v => .inr (.inr (.inr (.inl (show AfterTicks s (execWrUnmappedDE n v s) from ioWrite_same (fun _ => EngineSame.refl _) s))))
  | .rdUnmappedF0 n => .inr (.inr (.inr (.inl (show AfterTicks s (execRdUnmappedF0 n s) from ioRead_same (fun _ => EngineSame.refl _) s))))
  | .wrUnmappedF0 n v => .inr (.inr (.inr (.inl (show AfterTicks s (execWrUnmappedF0 n v s) from ioWrite_same (fun _ => EngineSame.refl _) s))))
  | .rdMem0 off => .inr (.inr (.inr (.inr (.inl ⟨_, engineSame_returned s _, show execRdMem0 off s = _ from rfl⟩))))
  | .wrMem0 off v => .inr (.inr (.inr (.inr (.inl ⟨_, engineSame_bankWrite s _ _, show execWrMem0 off v s = _ from rfl⟩))))
  | .rdMem1 off => .inr (.inr (.inr (.inr (.inl ⟨_, engineSame_returned s _, show execRdMem1 off s = _ from rfl⟩))))
  | .wrMem1 off v => .inr (.inr (.inr (.inr (.inl ⟨_, engineSame_bankWrite s _ _, show execWrMem1 off v s = _ from rfl⟩))))
  | .rdMem2 off => .inr (.inr (.inr (.inr (.inl ⟨_, engineSame_returned s _, show execRdMem2 off s = _ from rfl⟩))))
  | .wrMem2 off v => .inr (.inr (.inr (.inr (.inl ⟨_, engineSame_bankWrite s _ _, show execWrMem2 off v s = _ from rfl⟩))))
  | .rdMem3 off => .inr (.inr (.inr (.inr (.inl ⟨_, engineSame_returned s _, show execRdMem3 off s = _ from rfl⟩))))
  | .wrMem3 off v => .inr (.inr (.inr (.inr (.inl ⟨_, engineSame_bankWrite s _ _, show execWrMem3 off v s = _ from rfl⟩))))
  | .cycN n => .inr (.inl ⟨n, rfl, rfl⟩)
  | .sync => .inr (.inr (.inl rfl))
  | .dmaCopy _ _ => .inl rfl
  | .dmaFill _ _ => .inl rfl
  | .dmaMasked _ _ => .inl rfl
  | .dmaApa _ _ => .inl rfl
  | .dmaPal _ _ => .inl rfl
  | .dmaSpr _ _ => .inl rfl
  | .dmaSprclr _ _ => .inl rfl
  | .dmaAltfill _ _ => .inl rfl
  | .fetchName => .inl rfl
  | .fetchAttr => .inl rfl
  | .fetchGfx0 => .inl rfl
  | .fetchGfx1 => .inl rfl
  | .fetchIdle _ => .inl rfl
  | .loadShiftLo => .inl rfl
  | .loadShiftHi => .inl rfl
  | .htHVisEnd => .inl rfl
  | .htHSyncStart => .inl rfl
  | .htHSyncEnd => .inl rfl
  | .htHEarly1 => .inl rfl
  | .htHEarly2 => .inl rfl
  | .htHEarly3 => .inl rfl
  | .htHEarly4 => .inl rfl
  | .htHTotal => .inl rfl
  | .vtVVisEnd => .inl rfl
  | .vtVSyncStart => .inl rfl
  | .vtVSyncEnd => .inl rfl
  | .vtVTotal => .inl rfl

/-! ### Properties that every event keeps -/

/-- A property of the timing engine, the pipeline and the pictures alone. -/
def EngineProp (P : State → Prop) : Prop :=
  ∀ s u : State, u.tim = s.tim → u.pipe = s.pipe → u.raster = s.raster → u.framesOut = s.framesOut → P s → P u

/-- Through ticks. -/
theorem keeps_ticks {P : State → Prop} (hp : EngineProp P) (ht : ∀ s, P s → P (tick s)) {s : State} (h : P s) (n : Nat) : P (ticks n s) := by
  induction n generalizing s with
  | zero => exact h
  | succ n ih => exact ih (hp (tick s) (countedTick s) rfl rfl rfl rfl (ht s h))

/-- Through a charged cycle. -/
theorem keeps_cycle {P : State → Prop} (hp : EngineProp P) (ht : ∀ s, P s → P (tick s)) {s : State} (h : P s) : P (cycle s) :=
  keeps_ticks hp ht (hp s (s.addCycles 1) rfl rfl rfl rfl h) _

/-- Through a wait. -/
theorem keeps_iterate {P : State → Prop} (hc : ∀ s, P s → P (cycle s)) {s : State} (h : P s) (n : Nat) : P (cycle^[n] s) := by
  induction n with
  | zero => exact h
  | succ n ih => rw [Function.iterate_succ_apply']; exact hc _ ih

/-- Through a phase of a transfer step. -/
theorem phase_keeps {P : State → Prop} (hp : EngineProp P) {s u : State} (h : PhaseFrame s u) : P s → P u :=
  hp s u h.tim h.pipe h.raster h.framesOut

/-- Through a transfer step. -/
theorem keeps_dmaStep {P : State → Prop} (hp : EngineProp P) (ht : ∀ s, P s → P (tick s)) {pol : Interlock} {i : Nat} {s t : State} (hs : P s)
    (h : dmaStep pol i s = some t) : P t := by
  obtain ⟨rd, wr, he, hr, hw⟩ := dmaStep_eq pol i s
  rw [he] at h
  obtain ⟨k, rfl, -, -⟩ := dmaStepWith_eq_some h
  have hc : ∀ s, P s → P (cycle s) := fun s => keeps_cycle hp ht
  refine hp (cycle (wr (cycle (rd (cycle^[k] s))))) _ rfl rfl rfl rfl (hc _ (phase_keeps hp (phaseFrame_write hw _) (hc _ (phase_keeps hp (phaseFrame_read hr _) (keeps_iterate hc hs k)))))

/-- All a write of `VWAIT` can do when it answers a next state (R127). -/
theorem wrVwait_next {v : Byte} {s t : State} (h : exec (.wrVwait v) s = .next t) :
    ∃ k ≤ stallBound, t = advance (cycle^[k] (advance s)) ∧ (cycle^[k] (advance s)).tim.vblank = true ∧
      ∀ j < k, (cycle^[j] (advance s)).tim.vblank = false := by
  change execWrVwait v s = _ at h
  unfold execWrVwait at h
  rcases ioWriteStall_cases (fun u => stallWhile (fun w => !w.tim.vblank) stallBound u) s with ⟨z, hz, e⟩ | ⟨-, e⟩
  · rw [e] at h; cases h
    obtain ⟨k, hk, rfl, hb, hj⟩ := stallWhile_eq_some hz
    exact ⟨k, hk, rfl, by simpa using hb, fun j hl => by simpa using hj j hl⟩
  · rw [e] at h; cases h

/-- All a write of `DRUN` can do when it answers a next state (R160). -/
theorem wrDrun_next {v : Byte} {s t : State} (h : exec (.wrDrun v) s = .next t) :
    ∃ u, dmaLoop Config.dmaInterlock (stepCount v) 0 ((advance s).setDma { s.dma with drun := v }) = some u ∧ t = advance u := by
  change execWrDrun v s = _ at h
  unfold execWrDrun at h
  rcases ioWriteStall_cases (fun u => dmaRun Config.dmaInterlock (u.setDma { u.dma with drun := v })) s with ⟨z, hz, e⟩ | ⟨-, e⟩
  · rw [e] at h; cases h
    exact ⟨z, by rw [← advance_dma s]; exact hz, rfl⟩
  · rw [e] at h; cases h

/-- A property of the engine that a tick keeps is kept by every event. -/
theorem keeps_step {P : State → Prop} (hp : EngineProp P) (ht : ∀ s, P s → P (tick s)) {s t : State} (he : EventTrace s) (hs : P s)
    (h : step s = .next t) : P t := by
  obtain ⟨w, rest, i, hw, hd, hx⟩ := step_eq_next h
  have hi : (encode i).isEvent = true := encode_isEvent hd (he w (by simp [hw]))
  have h0 : P (s.setTrace rest) := hp s _ rfl rfl rfl rfl hs
  generalize s.setTrace rest = u at *
  have ha : P (advance u) := keeps_ticks hp ht h0 _
  have hc : ∀ s, P s → P (cycle s) := fun s => keeps_cycle hp ht
  rcases exec_event i u with c | ⟨n, rfl, c⟩ | c | ⟨z, hz, c⟩ | ⟨z, hz, c⟩ | ⟨v, rfl⟩ | ⟨v, rfl⟩
  · rw [hi] at c; cases c
  · rw [c] at hx; cases hx; exact hp u _ rfl rfl rfl rfl h0
  · rw [c] at hx; cases hx; exact ha
  · rw [c] at hx; cases hx; exact hp _ _ hz.tim hz.pipe hz.raster hz.framesOut ha
  · rw [c] at hx; cases hx; exact hp _ _ hz.tim hz.pipe hz.raster hz.framesOut h0
  · obtain ⟨k, -, rfl, -, -⟩ := wrVwait_next hx
    exact keeps_ticks hp ht (keeps_iterate hc ha k) _
  · obtain ⟨z, hz, rfl⟩ := wrDrun_next hx
    have hb : P ((advance u).setDma { u.dma with drun := v }) := hp (advance u) _ rfl rfl rfl rfl ha
    exact keeps_ticks hp ht (dmaLoop_induction (fun i s t => keeps_dmaStep hp ht) hb hz) _

/-! ### Operations one after another, and the waits of a transfer -/

@[simp] theorem execAll_nil (s : State) : execAll [] s = some s := rfl

theorem execAll_cons {i : Instr} {s t : State} (h : exec i s = .next t) (r : List Instr) : execAll (i :: r) s = execAll r t := by
  rw [execAll, h]

/-- What is done in two parts. -/
theorem execAll_append (l r : List Instr) (s : State) : execAll (l ++ r) s = (execAll l s).bind (execAll r) := by
  induction l generalizing s with
  | nil => rfl
  | cons i l ih =>
    rw [List.cons_append, execAll, execAll]
    split
    · exact ih _
    · rfl
    · rfl

@[simp] theorem waitsBefore_zero (k : Nat → Nat) : waitsBefore k 0 = 0 := rfl
@[simp] theorem waitsBefore_succ (k : Nat → Nat) (i : Nat) : waitsBefore k (i + 1) = waitsBefore k i + k i := rfl

end Sys2Proof.Machine
end

