-- ==== Sys2Proof/Laws/PerInstr.lean ====
section
/-! SUPPORT. The round trip of the encoding, one lemma per operation: decoding the encoded operation gives it back. -/

namespace Sys2Proof

/-! ### Parts of the encodings -/

/-- The mode of a control byte that was put together from flags and a mode code (R86, R87). -/
theorem dmaModeOf_dctlByte (f : DmaFlags) (m : BitVec 3) : dmaModeOf (dctlByte f m) = dmaModeOf (dctlByte ⟨false, false, false, false, false⟩ m) := by
  obtain ⟨a, b, c, d, e⟩ := f
  revert a b c d e m
  decide

/-- The flags of a control byte that was put together from flags and a mode code (R86). -/
theorem dmaFlagsOf_dctlByte (f : DmaFlags) (m : BitVec 3) : dmaFlagsOf (dctlByte f m) = f := by
  obtain ⟨a, b, c, d, e⟩ := f
  revert a b c d e m
  decide

/-- Decoding the control byte of a mode, at a step index that a transfer has. -/
theorem decodeDctl_dctlByte (f : DmaFlags) (m : BitVec 3) {i : Nat} (h : stepIndexOk i = true) :
    decodeDctl (dctlByte f m) i = .instr (dmaInstr (dmaModeOf (dctlByte ⟨false, false, false, false, false⟩ m)) f i) := by
  rw [decodeDctl, if_pos h, dmaModeOf_dctlByte, dmaFlagsOf_dctlByte]

/-- An address outside the I/O window is read in its bank window (R51). -/
theorem decodeRead_of_not_io {a : Addr} (h : inIoWindow a = false) : decodeRead a = decodeBankRead a := by simp [decodeRead, h]

/-- An address outside the I/O window is written in its bank window (R51). -/
theorem decodeWrite_of_not_io {a : Addr} (v : Byte) (h : inIoWindow a = false) : decodeWrite a v = decodeBankWrite a v := by
  simp [decodeWrite, h]

/-- An I/O write is decoded by its offset (R51, R80). -/
theorem decode_io_write {k : Nat} (h : k < 64) (v : Byte) : decode (.wr (BitVec.ofNat 16 (192 + k)) v) = .instr (decodeIoWrite k v) := by
  have e : (BitVec.ofNat 16 (192 + k)).toNat = 192 + k := by simp; omega
  have w : inIoWindow (BitVec.ofNat 16 (192 + k)) = true := by
    rw [inIoWindow, e]; simp [Config.ioBase, Config.ioSize]; omega
  rw [decode, decodeWrite, if_pos w, e, Config.ioBase, Nat.add_sub_cancel_left]

/-- An I/O read is decoded by its offset (R51, R80). -/
theorem decode_io_read {k : Nat} (h : k < 64) : decode (.rd (BitVec.ofNat 16 (192 + k))) = .instr (decodeIoRead k) := by
  have e : (BitVec.ofNat 16 (192 + k)).toNat = 192 + k := by simp; omega
  have w : inIoWindow (BitVec.ofNat 16 (192 + k)) = true := by
    rw [inIoWindow, e]; simp [Config.ioBase, Config.ioSize]; omega
  rw [decode, decodeRead, if_pos w, e, Config.ioBase, Nat.add_sub_cancel_left]

theorem addrWindow_append (w : BitVec 2) (off : BitVec 14) : addrWindow (w ++ off) = w := by
  unfold addrWindow; ext i hi
  rw [BitVec.getElem_extractLsb', BitVec.getLsbD_append]; simp [BitVec.getLsbD_eq_getElem, hi]

theorem addrOffset_append (w : BitVec 2) (off : BitVec 14) : addrOffset (w ++ off) = off := by
  unfold addrOffset; ext i hi
  rw [BitVec.getElem_extractLsb', BitVec.getLsbD_append]; simp [hi, BitVec.getLsbD_eq_getElem]

theorem append_toNat (w : BitVec 2) (off : BitVec 14) : (w ++ off).toNat = w.toNat * 16384 + off.toNat := by
  have := off.isLt
  rw [BitVec.toNat_append, ← Nat.shiftLeft_add_eq_or_of_lt this, Nat.shiftLeft_eq]

/-- The I/O window lies in bank window 0 (R51, R55). -/
theorem inIoWindow_append (w : BitVec 2) (off : BitVec 14) : inIoWindow (w ++ off) = (decide (w = 0) && underIoWindow off) := by
  have hw := w.isLt
  have ho := off.isLt
  have e : w = 0 ↔ w.toNat = 0 := by simp [BitVec.toNat_eq]
  rw [inIoWindow, underIoWindow, append_toNat, Bool.eq_iff_iff]
  simp only [Bool.and_eq_true, decide_eq_true_eq, e, Config.ioBase, Config.ioSize]
  omega

namespace Laws.RoundTrip

/-! The dispatch of R80 is one match on 26 offsets: evaluating it is deeper than the default recursion depth. -/
set_option maxRecDepth 2000

/-- An operation that has an encoding is read back from it. -/
def Statement (i : Instr) : Prop := i.wf = true → decode (encode i) = .instr i

theorem rdVctl : Statement .rdVctl := fun _ => rfl
theorem wrVctl (v : Byte) : Statement (.wrVctl v) := fun _ => rfl
theorem rdVena : Statement .rdVena := fun _ => rfl
theorem wrVena (v : Byte) : Statement (.wrVena v) := fun _ => rfl
theorem rdVsta : Statement .rdVsta := fun _ => rfl
theorem wrVsta (v : Byte) : Statement (.wrVsta v) := fun _ => rfl
theorem rdVwait : Statement .rdVwait := fun _ => rfl
theorem wrVwait (v : Byte) : Statement (.wrVwait v) := fun _ => rfl
theorem rdScrh : Statement .rdScrh := fun _ => rfl
theorem wrScrh (v : Byte) : Statement (.wrScrh v) := fun _ => rfl
theorem rdScrhf : Statement .rdScrhf := fun _ => rfl
theorem wrScrhf (v : Byte) : Statement (.wrScrhf v) := fun _ => rfl
theorem rdScrv : Statement .rdScrv := fun _ => rfl
theorem wrScrv (v : Byte) : Statement (.wrScrv v) := fun _ => rfl
theorem rdScrvf : Statement .rdScrvf := fun _ => rfl
theorem wrScrvf (v : Byte) : Statement (.wrScrvf v) := fun _ => rfl
theorem rdNtsize : Statement .rdNtsize := fun _ => rfl
theorem wrNtsize (v : Byte) : Statement (.wrNtsize v) := fun _ => rfl
theorem rdNtbase : Statement .rdNtbase := fun _ => rfl
theorem wrNtbase (v : Byte) : Statement (.wrNtbase v) := fun _ => rfl
theorem rdPala : Statement .rdPala := fun _ => rfl
theorem wrPala (v : Byte) : Statement (.wrPala v) := fun _ => rfl
theorem rdPald : Statement .rdPald := fun _ => rfl
theorem wrPald (v : Byte) : Statement (.wrPald v) := fun _ => rfl
theorem rdSpra : Statement .rdSpra := fun _ => rfl
theorem wrSpra (v : Byte) : Statement (.wrSpra v) := fun _ => rfl
theorem rdSprd : Statement .rdSprd := fun _ => rfl
theorem wrSprd (v : Byte) : Statement (.wrSprd v) := fun _ => rfl
theorem rdDsrcl : Statement .rdDsrcl := fun _ => rfl
theorem wrDsrcl (v : Byte) : Statement (.wrDsrcl v) := fun _ => rfl
theorem rdDsrch : Statement .rdDsrch := fun _ => rfl
theorem wrDsrch (v : Byte) : Statement (.wrDsrch v) := fun _ => rfl
theorem rdDdstl : Statement .rdDdstl := fun _ => rfl
theorem wrDdstl (v : Byte) : Statement (.wrDdstl v) := fun _ => rfl
theorem rdDdsth : Statement .rdDdsth := fun _ => rfl
theorem wrDdsth (v : Byte) : Statement (.wrDdsth v) := fun _ => rfl
theorem rdDctl : Statement .rdDctl := fun _ => rfl
theorem wrDctl (v : Byte) : Statement (.wrDctl v) := fun _ => rfl
theorem rdDrun : Statement .rdDrun := fun _ => rfl
theorem wrDrun (v : Byte) : Statement (.wrDrun v) := fun _ => rfl
theorem rdDfill : Statement .rdDfill := fun _ => rfl
theorem wrDfill (v : Byte) : Statement (.wrDfill v) := fun _ => rfl
theorem rdDpage : Statement .rdDpage := fun _ => rfl
theorem wrDpage (v : Byte) : Statement (.wrDpage v) := fun _ => rfl
theorem rdBank2 : Statement .rdBank2 := fun _ => rfl
theorem wrBank2 (v : Byte) : Statement (.wrBank2 v) := fun _ => rfl
theorem rdBank3 : Statement .rdBank3 := fun _ => rfl
theorem wrBank3 (v : Byte) : Statement (.wrBank3 v) := fun _ => rfl
theorem rdKcol : Statement .rdKcol := fun _ => rfl
theorem wrKcol (v : Byte) : Statement (.wrKcol v) := fun _ => rfl
theorem rdKdata : Statement .rdKdata := fun _ => rfl
theorem wrKdata (v : Byte) : Statement (.wrKdata v) := fun _ => rfl
theorem rdAudio (n : BitVec 4) : Statement (.rdAudio n) := by unfold Statement; revert n; decide +kernel
theorem wrAudio (n : BitVec 4) (v : Byte) : Statement (.wrAudio n v) := fun _ => by
  obtain ⟨k, hk, rfl⟩ : ∃ k, k < 16 ∧ n = BitVec.ofNat 4 k := ⟨n.toNat, n.isLt, by simp⟩
  interval_cases k <;> rfl
theorem rdUnmappedCE (n : BitVec 1) : Statement (.rdUnmappedCE n) := by unfold Statement; revert n; decide +kernel
theorem wrUnmappedCE (n : BitVec 1) (v : Byte) : Statement (.wrUnmappedCE n v) := fun _ => by
  obtain ⟨k, hk, rfl⟩ : ∃ k, k < 2 ∧ n = BitVec.ofNat 1 k := ⟨n.toNat, n.isLt, by simp⟩
  interval_cases k <;> rfl
theorem rdUnmappedD6 (n : BitVec 1) : Statement (.rdUnmappedD6 n) := by unfold Statement; revert n; decide +kernel
theorem wrUnmappedD6 (n : BitVec 1) (v : Byte) : Statement (.wrUnmappedD6 n v) := fun _ => by
  obtain ⟨k, hk, rfl⟩ : ∃ k, k < 2 ∧ n = BitVec.ofNat 1 k := ⟨n.toNat, n.isLt, by simp⟩
  interval_cases k <;> rfl
theorem rdUnmappedDE (n : BitVec 1) : Statement (.rdUnmappedDE n) := by unfold Statement; revert n; decide +kernel
theorem wrUnmappedDE (n : BitVec 1) (v : Byte) : Statement (.wrUnmappedDE n v) := fun _ => by
  obtain ⟨k, hk, rfl⟩ : ∃ k, k < 2 ∧ n = BitVec.ofNat 1 k := ⟨n.toNat, n.isLt, by simp⟩
  interval_cases k <;> rfl
theorem rdUnmappedF0 (n : BitVec 4) : Statement (.rdUnmappedF0 n) := by unfold Statement; revert n; decide +kernel
theorem wrUnmappedF0 (n : BitVec 4) (v : Byte) : Statement (.wrUnmappedF0 n v) := fun _ => by
  obtain ⟨k, hk, rfl⟩ : ∃ k, k < 16 ∧ n = BitVec.ofNat 4 k := ⟨n.toNat, n.isLt, by simp⟩
  interval_cases k <;> rfl
theorem rdMem0 (off : BitVec 14) : Statement (.rdMem0 off) := fun h => by
  have e : inIoWindow ((0 : BitVec 2) ++ off) = false := by rw [inIoWindow_append]; exact (Bool.not_eq_true' _).mp h
  show Decoded.instr (decodeRead ((0 : BitVec 2) ++ off)) = _
  rw [decodeRead_of_not_io e, decodeBankRead, addrWindow_append, addrOffset_append]
  rfl
theorem wrMem0 (off : BitVec 14) (v : Byte) : Statement (.wrMem0 off v) := fun h => by
  have e : inIoWindow ((0 : BitVec 2) ++ off) = false := by rw [inIoWindow_append]; exact (Bool.not_eq_true' _).mp h
  show Decoded.instr (decodeWrite ((0 : BitVec 2) ++ off) v) = _
  rw [decodeWrite_of_not_io v e, decodeBankWrite, addrWindow_append, addrOffset_append]
  rfl
theorem rdMem1 (off : BitVec 14) : Statement (.rdMem1 off) := fun _ => by
  have e : inIoWindow ((1 : BitVec 2) ++ off) = false := by rw [inIoWindow_append]; rfl
  show Decoded.instr (decodeRead ((1 : BitVec 2) ++ off)) = _
  rw [decodeRead_of_not_io e, decodeBankRead, addrWindow_append, addrOffset_append]
  rfl
theorem wrMem1 (off : BitVec 14) (v : Byte) : Statement (.wrMem1 off v) := fun _ => by
  have e : inIoWindow ((1 : BitVec 2) ++ off) = false := by rw [inIoWindow_append]; rfl
  show Decoded.instr (decodeWrite ((1 : BitVec 2) ++ off) v) = _
  rw [decodeWrite_of_not_io v e, decodeBankWrite, addrWindow_append, addrOffset_append]
  rfl
theorem rdMem2 (off : BitVec 14) : Statement (.rdMem2 off) := fun _ => by
  have e : inIoWindow ((2 : BitVec 2) ++ off) = false := by rw [inIoWindow_append]; rfl
  show Decoded.instr (decodeRead ((2 : BitVec 2) ++ off)) = _
  rw [decodeRead_of_not_io e, decodeBankRead, addrWindow_append, addrOffset_append]
  rfl
theorem wrMem2 (off : BitVec 14) (v : Byte) : Statement (.wrMem2 off v) := fun _ => by
  have e : inIoWindow ((2 : BitVec 2) ++ off) = false := by rw [inIoWindow_append]; rfl
  show Decoded.instr (decodeWrite ((2 : BitVec 2) ++ off) v) = _
  rw [decodeWrite_of_not_io v e, decodeBankWrite, addrWindow_append, addrOffset_append]
  rfl
theorem rdMem3 (off : BitVec 14) : Statement (.rdMem3 off) := fun _ => by
  have e : inIoWindow ((3 : BitVec 2) ++ off) = false := by rw [inIoWindow_append]; rfl
  show Decoded.instr (decodeRead ((3 : BitVec 2) ++ off)) = _
  rw [decodeRead_of_not_io e, decodeBankRead, addrWindow_append, addrOffset_append]
  rfl
theorem wrMem3 (off : BitVec 14) (v : Byte) : Statement (.wrMem3 off v) := fun _ => by
  have e : inIoWindow ((3 : BitVec 2) ++ off) = false := by rw [inIoWindow_append]; rfl
  show Decoded.instr (decodeWrite ((3 : BitVec 2) ++ off) v) = _
  rw [decodeWrite_of_not_io v e, decodeBankWrite, addrWindow_append, addrOffset_append]
  rfl
theorem cycN (n : Nat) : Statement (.cycN n) := fun _ => rfl
theorem sync : Statement .sync := fun _ => rfl
theorem dmaCopy (f : DmaFlags) (i : Nat) : Statement (.dmaCopy f i) := fun h => decodeDctl_dctlByte f _ h
theorem dmaFill (f : DmaFlags) (i : Nat) : Statement (.dmaFill f i) := fun h => decodeDctl_dctlByte f _ h
theorem dmaMasked (f : DmaFlags) (i : Nat) : Statement (.dmaMasked f i) := fun h => decodeDctl_dctlByte f _ h
theorem dmaApa (f : DmaFlags) (i : Nat) : Statement (.dmaApa f i) := fun h => decodeDctl_dctlByte f _ h
theorem dmaPal (f : DmaFlags) (i : Nat) : Statement (.dmaPal f i) := fun h => decodeDctl_dctlByte f _ h
theorem dmaSpr (f : DmaFlags) (i : Nat) : Statement (.dmaSpr f i) := fun h => decodeDctl_dctlByte f _ h
theorem dmaSprclr (f : DmaFlags) (i : Nat) : Statement (.dmaSprclr f i) := fun h => decodeDctl_dctlByte f _ h
theorem dmaAltfill (f : DmaFlags) (i : Nat) : Statement (.dmaAltfill f i) := fun h => decodeDctl_dctlByte f _ h
theorem fetchName : Statement .fetchName := fun _ => rfl
theorem fetchAttr : Statement .fetchAttr := fun _ => rfl
theorem fetchGfx0 : Statement .fetchGfx0 := fun _ => rfl
theorem fetchGfx1 : Statement .fetchGfx1 := fun _ => rfl
theorem fetchIdle (p : BitVec 3) : Statement (.fetchIdle p) := by unfold Statement; revert p; decide
theorem loadShiftLo : Statement .loadShiftLo := fun _ => rfl
theorem loadShiftHi : Statement .loadShiftHi := fun _ => rfl
theorem htHVisEnd : Statement .htHVisEnd := fun _ => rfl
theorem htHSyncStart : Statement .htHSyncStart := fun _ => rfl
theorem htHSyncEnd : Statement .htHSyncEnd := fun _ => rfl
theorem htHEarly1 : Statement .htHEarly1 := fun _ => rfl
theorem htHEarly2 : Statement .htHEarly2 := fun _ => rfl
theorem htHEarly3 : Statement .htHEarly3 := fun _ => rfl
theorem htHEarly4 : Statement .htHEarly4 := fun _ => rfl
theorem htHTotal : Statement .htHTotal := fun _ => rfl
theorem vtVVisEnd : Statement .vtVVisEnd := fun _ => rfl
theorem vtVSyncStart : Statement .vtVSyncStart := fun _ => rfl
theorem vtVSyncEnd : Statement .vtVSyncEnd := fun _ => rfl
theorem vtVTotal : Statement .vtVTotal := fun _ => rfl

end Laws.RoundTrip

end Sys2Proof
end

