-- ==== Sys2Proof/Tests/Slice0.lean ====
section
/-! SUPPORT. Checks on single steps: ill-formed operations that WellFormed refuses, encodings written out from the spec's tables, vectors
of 95_test_vectors.md taken one step at a time, and for every statement with hypotheses a case that meets them. -/

open Sys2Proof Sys2Proof.Machine
open Sys2Proof.Config (Region)

namespace Sys2Proof.Tests

set_option maxRecDepth 4000
set_option Elab.async false

/-! ### Well-formedness and the parameters -/

/-- D-parameters that fit together (00_scope.md section 5). -/
theorem test_config_ok : Config.ok = true := by decide

/-- Addresses 0x00C0 and 0x00FF are hidden from the CPU (R116). -/
theorem test_wf_mem0 :
    (Instr.rdMem0 0x00C0).wf = false ∧ (Instr.wrMem0 0x00FF 1).wf = false ∧ (Instr.rdMem0 0x00BF).wf = true ∧
      (Instr.wrMem0 0x0100 1).wf = true := by decide

/-- A transfer has no step 256 (R181). -/
theorem test_wf_step :
    (Instr.dmaCopy (dmaFlagsOf 0x00) 256).wf = false ∧ (Instr.dmaAltfill (dmaFlagsOf 0x00) 255).wf = true := by decide

/-- The even phases fetch (R260). -/
theorem test_wf_idle : (Instr.fetchIdle 2).wf = false ∧ (Instr.fetchIdle 3).wf = true := by decide

/-! ### Encodings, from 30_encoding.md and opcode_table.json -/

/-- The window is tested first; its first and last address, and their neighbours (R51, V11). -/
theorem test_decode_window :
    decode (.rd 0x00BF) = .instr (.rdMem0 0x00BF) ∧ decode (.rd 0x00C0) = .instr .rdVctl ∧
      decode (.rd 0x00FF) = .instr (.rdUnmappedF0 15) ∧ decode (.rd 0x0100) = .instr (.rdMem0 0x0100) := by decide +kernel

/-- The first and last address of each bank window (R55). -/
theorem test_decode_banks :
    decode (.wr 0x3FFF 7) = .instr (.wrMem0 0x3FFF 7) ∧ decode (.wr 0x4000 7) = .instr (.wrMem1 0 7) ∧
      decode (.wr 0x7FFF 7) = .instr (.wrMem1 0x3FFF 7) ∧ decode (.wr 0x8000 7) = .instr (.wrMem2 0 7) ∧
      decode (.rd 0xBFFF) = .instr (.rdMem2 0x3FFF) ∧ decode (.rd 0xC000) = .instr (.rdMem3 0) ∧
      decode (.rd 0xFFFF) = .instr (.rdMem3 0x3FFF) := by decide +kernel

/-- Writes of the video registers (R81). -/
theorem test_decode_video :
    decode (.wr 0x00C0 9) = .instr (.wrVctl 9) ∧ decode (.wr 0x00C1 9) = .instr (.wrVena 9) ∧
      decode (.wr 0x00C2 9) = .instr (.wrVsta 9) ∧ decode (.wr 0x00C3 9) = .instr (.wrVwait 9) ∧
      decode (.wr 0x00C4 9) = .instr (.wrScrh 9) ∧ decode (.wr 0x00C5 9) = .instr (.wrScrhf 9) ∧
      decode (.wr 0x00C6 9) = .instr (.wrScrv 9) ∧ decode (.wr 0x00C7 9) = .instr (.wrScrvf 9) ∧
      decode (.wr 0x00C8 9) = .instr (.wrNtsize 9) ∧ decode (.wr 0x00C9 9) = .instr (.wrNtbase 9) := by decide +kernel

/-- Writes of the ports and of the DMA and system registers (R81). -/
theorem test_decode_others :
    decode (.wr 0x00CA 9) = .instr (.wrPala 9) ∧ decode (.wr 0x00CC 9) = .instr (.wrSpra 9) ∧
      decode (.wr 0x00CD 9) = .instr (.wrSprd 9) ∧ decode (.wr 0x00D0 9) = .instr (.wrDsrcl 9) ∧
      decode (.wr 0x00D1 9) = .instr (.wrDsrch 9) ∧ decode (.wr 0x00D2 9) = .instr (.wrDdstl 9) ∧
      decode (.wr 0x00D3 9) = .instr (.wrDdsth 9) ∧ decode (.wr 0x00D4 9) = .instr (.wrDctl 9) ∧
      decode (.wr 0x00D8 9) = .instr (.wrDfill 9) ∧ decode (.wr 0x00D9 9) = .instr (.wrDpage 9) ∧
      decode (.wr 0x00DB 9) = .instr (.wrBank3 9) ∧ decode (.wr 0x00DC 9) = .instr (.wrKcol 9) ∧
      decode (.rd 0x00DD) = .instr .rdKdata ∧ decode (.rd 0x00D6) = .instr (.rdUnmappedD6 0) ∧
      decode (.rd 0x00DF) = .instr (.rdUnmappedDE 1) := by decide +kernel

/-- The eight modes, the flags of a control byte, and what is refused (R86, R87). -/
theorem test_decode_dctl :
    decode (.dctl 0x80 0) = .instr (.dmaCopy ⟨true, false, false, false, false⟩ 0) ∧
      decode (.dctl 0x41 1) = .instr (.dmaFill ⟨false, true, false, false, false⟩ 1) ∧
      decode (.dctl 0x22 2) = .instr (.dmaMasked ⟨false, false, true, false, false⟩ 2) ∧
      decode (.dctl 0x13 3) = .instr (.dmaApa ⟨false, false, false, true, false⟩ 3) ∧
      decode (.dctl 0x0C 4) = .instr (.dmaPal ⟨false, false, false, false, true⟩ 4) ∧
      decode (.dctl 0x05 5) = .instr (.dmaSpr ⟨false, false, false, false, false⟩ 5) ∧
      decode (.dctl 0x06 6) = .instr (.dmaSprclr ⟨false, false, false, false, false⟩ 6) ∧
      decode (.dctl 0xFF 255) = .instr (.dmaAltfill ⟨true, true, true, true, true⟩ 255) ∧
      decode (.dctl 0xFF 256) = .reject (.noSuchStep 256) := by decide +kernel

/-- The phases of the fetch scheduler and of the loads (R260, R276, R277). -/
theorem test_decode_phases :
    decode (.fetchSlot 0) = .instr .fetchName ∧ decode (.fetchSlot 2) = .instr .fetchAttr ∧ decode (.fetchSlot 5) = .instr (.fetchIdle 5) ∧
      decode (.loadSlot 4) = .instr .loadShiftLo ∧ decode (.loadSlot 2) = .reject (.noLoadAtPhase 2) := by decide +kernel

/-- The thresholds (R223, R235). -/
theorem test_decode_thresholds :
    decode (.hcount 320 1) = .instr .htHVisEnd ∧ decode (.hcount 416 4) = .instr .htHEarly4 ∧ decode (.hcount 432 1) = .instr .htHTotal ∧
      decode (.hcount 417 1) = .reject (.noHorizontalAction 417 1) ∧ decode (.vcount 240) = .instr .vtVVisEnd ∧
      decode (.vcount 262) = .instr .vtVTotal ∧ decode (.vcount 241) = .reject (.noVerticalAction 241) := by decide +kernel

/-- Words of the opcode table: a bus word is address, data, direction (log 2). -/
theorem test_table_words :
    decodeTableWord 16 0x00C0 = some .rdVctl ∧ decodeTableWord 16 0x010500C0 = some (.wrVctl 5) ∧
      decodeTableWord 16 0x4000 = some (.rdMem1 0) ∧
      decodeTableWord 8 0x07 = some (.dmaAltfill ⟨false, false, false, false, false⟩ 0) ∧ decodeTableWord 3 6 = some .fetchGfx1 := by
  decide +kernel

/-! ### Steps -/

/-- The state after one event. -/
def after (s : State) (w : Selector) : Option State :=
  match step (s.setTrace [w]) with
  | .next t => some t
  | .fault _ => none
  | .refused _ => none

/-- A field of the state after one event. -/
def field {α : Type} (s : State) (w : Selector) (f : State → α) : Option α := (after s w).map f

/-- The byte that a read returns. -/
def readBack (s : State) (a : Addr) : Option (List Byte) := field s (.rd a) fun t => t.readsOut

/-- The engine before the tick of index `h` of line `v` of the first frame, at CPU cycle `c` (R45). -/
def at' (v h c : Nat) : State :=
  { State.reset with
    cpuCycles := c
    pixelClock := v * 432 + h
    tim :=
      { hcount := h, htile := 0, hsub := BitVec.ofNat 3 h, vcount := v, vtile := 0, vsub := 0, hborder := decide (320 ≤ h),
        hblank := decide (320 ≤ h), vborder := decide (240 ≤ v), vblank := decide (240 ≤ v), hbusy := decide (h < 320 ∨ 416 ≤ h),
        vbusy := decide (v < 240) }
    raster := { fb := [], row := min (24 + v) 287, col := 32 + if v < 240 ∧ h < 416 then min h 320 else 0 } }

/-- A placed word is what the next step runs (log 1). -/
theorem test_fetch_word : (match step (State.reset.withFetchWord 16 0x010500C0) with | .next t => t.video.vctl | _ => 0) = 5 := by
  decide +kernel

/-- R4: cycles are counted, the engine is not advanced. -/
theorem test_cycN : field State.reset (.cyc 96) (fun t => (t.cpuCycles, t.pixelClock)) = some (96, 0) := by decide +kernel

/-- V80b: two cycles are nine ticks. -/
theorem test_sync : field { State.reset with cpuCycles := 2 } .sync (fun t => (t.pixelClock, t.tim.hcount)) = some (9, 9) := by decide +kernel

/-- V12: the control byte is stored verbatim. -/
theorem test_wrDctl : field State.reset (.wr 0x00D4 0xFF) (fun t => t.dma.dctl) = some 0xFF := by decide +kernel

/-- V13: three bits are kept. -/
theorem test_scroll : field State.reset (.wr 0x00C5 0xFF) (fun t => t.video.scrhf) = some 7 ∧
    field State.reset (.wr 0x00C7 0xFD) (fun t => t.video.scrvf) = some 5 := by decide +kernel

/-- V14: six and four bits are kept. -/
theorem test_widths : field State.reset (.wr 0x00CA 0xFF) (fun t => t.video.pala) = some 0x3F ∧
    field State.reset (.wr 0x00DC 0xFF) (fun t => t.sys.kcol) = some 0x0F := by decide +kernel

/-- V15: the sprite address is not reduced. -/
theorem test_wrSpra : field State.reset (.wr 0x00CC 0xFF) (fun t => t.video.spra) = some 0xFF := by decide +kernel

/-- V16: the last palette entry, and the wrap of the address. -/
theorem test_wrPald :
    field { State.reset with video := { State.reset.video with pala := 63 } } (.wr 0x00CB 0x22)
      (fun t => (t.peek .pal 63, t.video.pala)) = some (0x22, 0) := by decide +kernel

/-- V17: a read moves the address too. -/
theorem test_rdPald :
    field { State.reset with video := { State.reset.video with pala := 63 }, mem := { State.reset.mem with pal := [(63, 0x22)] } }
      (.rd 0x00CB) (fun t => (t.readsOut, t.video.pala)) = some ([0x22], 0) := by decide +kernel

/-- V18: the last sprite byte, and the wrap of the address. -/
theorem test_wrSprd :
    field { State.reset with video := { State.reset.video with spra := 159 } } (.wr 0x00CD 0xA2)
      (fun t => (t.mem.spr, t.video.spra)) = some ([(159, 0xA2)], 0) := by decide +kernel

/-- V19: an address out of range is skipped and moves on. -/
theorem test_wrSprd_skipped :
    field { State.reset with video := { State.reset.video with spra := 200 } } (.wr 0x00CD 0x77)
      (fun t => (t.mem.spr, t.video.spra)) = some ([], 41) := by decide +kernel

/-- V20, V21: a skipped read returns open bus; 255 moves on to 96. -/
theorem test_rdSprd_skipped :
    field { State.reset with video := { State.reset.video with spra := 255 } } (.rd 0x00CD)
      (fun t => (t.readsOut, t.video.spra)) = some ([0xFF], 96) := by decide +kernel

/-- V22: the halves of the counters. -/
theorem test_counters :
    field { State.reset with dma := { State.reset.dma with dsrc := 0x0034 } } (.wr 0x00D1 0x12) (fun t => t.dma.dsrc) = some 0x1234 ∧
      field { State.reset with dma := { State.reset.dma with ddst := 0xAB00 } } (.wr 0x00D2 0xCD) (fun t => t.dma.ddst) = some 0xABCD := by
  decide +kernel

/-- V25, V102: write 1 to clear, and the request follows. -/
theorem test_wrVsta :
    field { State.reset with video := { State.reset.video with vsta := 1 }, irq := true } (.wr 0x00C2 0xFE)
        (fun t => (t.video.vsta, t.irq)) = some (1, true) ∧
      field { State.reset with video := { State.reset.video with vsta := 1 }, irq := true } (.wr 0x00C2 0x01)
        (fun t => (t.video.vsta, t.irq)) = some (0, false) := by decide +kernel

/-- V10, V26: open bus. -/
theorem test_open_bus :
    readBack State.reset 0x00C3 = some [0xFF] ∧ readBack State.reset 0x00CE = some [0xFF] ∧ readBack State.reset 0x00E0 = some [0xFF] ∧
      readBack { State.reset with sys := { State.reset.sys with bank2 := 2 } } 0x8000 = some [0xFF] := by decide +kernel

/-- V9: window 3 sees page 1 of cartridge RAM. -/
theorem test_wrMem3 :
    field { State.reset with sys := { State.reset.sys with bank3 := 1 } } (.wr 0xC000 0x33) (fun t => t.mem.cart) = some [(16384, 0x33)] := by
  decide +kernel

/-- V3: a write to ROM is dropped. -/
theorem test_wrMem2 : field State.reset (.wr 0x8000 0x11) (fun t => (t.mem.rom, t.mem.cart)) = some ([], []) := by decide +kernel

/-- R238, R240: five ticks before line 243 the flag is still clear; the request is raised with it. -/
theorem test_vsync :
    field { at' 242 427 23328 with video := { State.reset.video with vena := 1 } } .sync
      (fun t => (t.tim.vcount, t.tim.hcount, t.video.vsta, t.irq)) = some (243, 0, 1, true) := by decide +kernel

/-- V28b: the wait for vertical blank ends with line 240. -/
theorem test_wrVwait :
    field (at' 239 427 23039) (.wr 0x00C3 0xAA) (fun t => (t.cpuCycles, t.tim.vcount, t.tim.hcount, t.framesOut.length)) =
      some (23040, 240, 0, 1) := by decide +kernel

/-- V39 with one step: a fill of VRAM in vertical blank costs two cycles. -/
theorem test_wrDrun :
    field { at' 240 0 23040 with dma := { State.reset.dma with dctl := 0x41, dfill := 0xAA, ddst := 0x2000 } } (.wr 0x00D5 1)
      (fun t => (t.mem.vram, t.cpuCycles, t.dma.ddst, t.dma.drun)) = some ([(0x2000, 0xAA)], 23042, 0x2001, 0) := by decide +kernel

/-- V43: one 2-bit pixel is merged into the byte that holds it. -/
theorem test_dmaApa :
    field
      { at' 240 0 23040 with
        mem := { State.reset.mem with ram0 := [(0, 0x03)], vram := [(0x0101, 0x00)] }
        dma := { State.reset.dma with dctl := 0x43, ddst := 0x0405, drun := 1 } }
      (.dctl 0x43 0) (fun t => (t.mem.vram, t.dma.dpage, t.dma.ddst)) = some ([(0x0101, 0x30)], 0x00, 0x0406) := by decide +kernel

/-- V51, V52: a sprite index below 160 is written; the sprite-clear stride is 4. -/
theorem test_dmaSprclr :
    field { at' 240 0 23040 with dma := { State.reset.dma with ddst := 156 } } (.dctl 0x36 0) (fun t => (t.mem.spr, t.dma.ddst)) =
      some ([(156, 0xFF)], 160) := by decide +kernel

/-- V55: an alternating fill writes the secondary latch at odd steps. -/
theorem test_dmaAltfill :
    field { at' 240 0 23040 with dma := { State.reset.dma with dfill := 0x41, dpage := 0x07, ddst := 0x2001 } } (.dctl 0x47 1)
      (fun t => t.mem.vram) = some [(0x2001, 0x07)] := by decide +kernel

/-- V121, V124: name-table addresses. -/
theorem test_ntAddr :
    ({ State.reset with
        video := { State.reset.video with ntbase := 0x80 }, tim := { State.reset.tim with vtile := 2, htile := 5 } } : State).ntAddr = 0x208A ∧
      ({ State.reset with
        video := { State.reset.video with ntbase := 0xFF }, tim := { State.reset.tim with vtile := 1 } } : State).ntAddr = 0 := by
  decide +kernel

/-- V126, V127: graphics addresses. -/
theorem test_gfxAddr :
    ({ State.reset with
        pipe := { State.reset.pipe with name := 1, attrF := 8 }, tim := { State.reset.tim with vsub := 1 } } : State).gfxAddr 0 = 0x1012 ∧
      ({ State.reset with
        video := { State.reset.video with vctl := 0x04 }, pipe := { State.reset.pipe with name := 1, attrF := 8 },
        tim := { State.reset.tim with vsub := 1 } } : State).gfxAddr 1 = 0x0013 := by decide +kernel

/-- The example of R276. -/
theorem test_loadShiftLo :
    (shiftLoad 4 { State.reset with pipe := { State.reset.pipe with sr := 0x5BC0, gfx0 := 0xE4 } }).pipe.sr = 0x6FE4 := by decide +kernel

/-- The example of R277. -/
theorem test_loadShiftHi :
    (shiftLoad 0 { State.reset with pipe := { State.reset.pipe with sr := 0xE400, gfx1 := 0x1B, attrF := 1 } }).pipe =
      { State.reset.pipe with sr := 0x901B, gfx1 := 0x1B, attrF := 1, attrA := 1 } := by decide +kernel

/-- The examples of R280: V141, V143, V145, V146. -/
theorem test_palIndex :
    ({ State.reset with pipe := { State.reset.pipe with attrA := 1, pix := 2 } } : State).palIndex = 6 ∧
      ({ State.reset with
        video := { State.reset.video with vctl := 0x40 }, pipe := { State.reset.pipe with attrA := 1, pix := 0xE } } : State).palIndex = 30 ∧
      ({ State.reset with
        video := { State.reset.video with vctl := 0x04 }, pipe := { State.reset.pipe with attrA := 0xA5, pix := 1 } } : State).palIndex = 10 ∧
      ({ State.reset with
        video := { State.reset.video with vctl := 0x04 }, pipe := { State.reset.pipe with attrA := 0xA5, pix := 2 } } : State).palIndex = 5 := by
  decide +kernel

/-- The examples of R282. -/
theorem test_decodeColour :
    decodeColour 0x1B = 0xFF4080C0 ∧ decodeColour 0xDD = 0xFF7FFF7F ∧ decodeColour 0xC0 = 0xFF3F3F3F := by decide +kernel

/-- R229, V94: the wrap of the vertical sub-tile counter. -/
theorem test_early :
    (tick { at' 10 415 1100 with tim := { (at' 10 415 1100).tim with vsub := 7, vtile := 31 } }).tim.vtile = 0 ∧
      (tick (at' 10 415 1100)).tim.vsub = 1 := by decide +kernel

/-- R234, V80j: the line end. -/
theorem test_line_end :
    (tick (at' 0 431 96)).tim.vcount = 1 ∧ (tick (at' 0 431 96)).tim.hcount = 0 ∧ (tick (at' 0 431 96)).raster.row = 25 := by
  decide +kernel

/-- V80c: the ninth tick finds the tile column moved on once. -/
theorem test_tile_column :
    (tick (at' 0 7 2)).tim.htile = 1 ∧ (tick (at' 0 6 2)).tim.htile = 0 ∧ (tick (at' 0 7 2)).tim.hsub = 0 := by decide +kernel

/-! ### Cases that meet the hypotheses of the statements -/

/-- Every place in the first frame, at any later cycle, satisfies the invariants of R45. -/
theorem timingInv_at {v h c : Nat} (hv : v < 262) (hh : h < 432) (hc : v * 432 + h ≤ 9 * c / 2) : TimingInv (at' v h c) := by
  constructor
  · constructor <;> simp [at', Config.hTotal, Config.vTotal, Config.hVisEnd, Config.vVisEnd, Config.hEarly, Config.fbY0, Config.fbH, Config.fbX0]
    all_goals omega
  · simp [at', tickGoal, Config.clkNum, Config.clkDen]; omega
  · simp [at', frameTicks, State.position, Config.hTotal, Config.vTotal]; omega

/-- An empty shift register has no pixels to destroy. -/
theorem shiftInv_zero {s : State} (h : s.pipe.sr = 0) : ShiftInv s := by simp [ShiftInv, h]

/-- DecodeAndEncodeAgree: on either side of well-formedness. -/
theorem witness_decode_encode :
    (decode (encode (.rdMem0 0x00BF)) = .instr (.rdMem0 0x00BF) ∧ (Instr.rdMem0 0x00BF).wf = true) ∧
      decode (encode (.rdMem0 0x00C0)) = .instr .rdVctl ∧ (Instr.rdMem0 0x00C0).wf = false := by decide +kernel

/-- EveryEventHasOneOperation. -/
theorem witness_event : decode (.wr 0x00D5 1) = .instr (.wrDrun 1) ∧ (Selector.wr 0x00D5 1).isEvent = true := by decide +kernel

/-- AddressesAreDecodedInOrder: the last address on each side of the window. -/
theorem witness_window :
    (0x00C0 ≤ (0x00C0 : Addr).toNat ∧ (0x00FF : Addr).toNat ≤ 0x00FF) ∧ ¬(0x00C0 ≤ (0x00BF : Addr).toNat) ∧
      ¬((0x0100 : Addr).toNat ≤ 0x00FF) ∧ (0x3FFF : Addr).toNat < 0x4000 ∧ ¬((0xC000 : Addr).toNat < 0xC000) := by decide

/-- StepRunsTheDecodedOperation: a pending event, a pending selector that names nothing, none pending. -/
theorem witness_step :
    (State.reset.setTrace [.sync]).trace = .sync :: [] ∧ decode .sync = .instr .sync ∧
      decode (.vcount 241) = .reject (.noVerticalAction 241) ∧ State.reset.trace = [] := by decide +kernel

/-- The last tick of a displayed line, with the flag and the request set and their acknowledgement pending. -/
def busyLine : State :=
  { at' 239 431 23040 with trace := [.wr 0x00C2 1], irq := true, video := { State.reset.video with vsta := 1 } }

/-- StepKeepsTheTimingInvariant, StepKeepsTheMargin, LoadsDestroyNoPixels, RunCountReadsZero, StepKeepsTheMemoryForm,
StepKeepsTheStatusInvariant, InterruptStaysUntilAcknowledged, EveryEventReturns. -/
theorem witness_event_step :
    ∃ s t : State, TimingInv s ∧ EventTrace s ∧ PictureInv s ∧ ShiftInv s ∧ s.dma.drun = 0 ∧ s.memWf ∧ StatusInv s ∧ s.irq = true ∧
      s.trace = [.wr 0x00C2 1] ∧ (Selector.wr 0x00C2 1).isEvent = true ∧ step s = .next t := by
  obtain ⟨t, -, ht⟩ := ioWrite_same (engineSame_ackStatus 1) (busyLine.setTrace [])
  exact ⟨busyLine, t,
    timingInv_of_eq (timingInv_at (v := 239) (h := 431) (c := 23040) (by decide) (by decide) (by decide)) rfl rfl rfl (Nat.le_refl _),
    List.forall_mem_singleton.mpr rfl, ⟨List.forall_mem_nil _, List.forall_mem_nil _⟩, shiftInv_zero rfl, rfl, by decide,
    ⟨by decide, by decide⟩, rfl, rfl, rfl, (step_of_trace (i := .wrVsta 1) rfl rfl).trans ht⟩

/-- LoadsDestroyNoPixels: both phases at which a byte is loaded. -/
theorem witness_load : ShiftInv (at' 0 4 8) ∧ (at' 0 4 8).tim.hsub = 4 ∧ ShiftInv (at' 0 8 8) ∧ (at' 0 8 8).tim.hsub = 0 :=
  ⟨shiftInv_zero rfl, by decide, shiftInv_zero rfl, by decide⟩

/-- EveryMemoryHasItsWriters: each memory but the ROM changes. -/
theorem witness_memories :
    field { at' 240 0 23040 with dma := { State.reset.dma with dctl := 0x41 } } (.wr 0x00D5 1) (fun t => decide (t.mem.vram = [])) = some false ∧
      field State.reset (.wr 0x00CB 1) (fun t => decide (t.mem.pal = [])) = some false ∧
      field State.reset (.wr 0x00CD 1) (fun t => decide (t.mem.spr = [])) = some false ∧
      field State.reset (.wr 0x0000 1) (fun t => decide (t.mem.ram0 = [])) = some false ∧
      field State.reset (.wr 0x4000 1) (fun t => decide (t.mem.ram1 = [])) = some false ∧
      field { State.reset with sys := { State.reset.sys with bank2 := 1 } } (.wr 0x8000 1) (fun t => decide (t.mem.cart = [])) = some false := by
  decide +kernel

/-- EveryRegisterHasItsWriters: the registers change, by the accesses named. -/
theorem witness_registers :
    ([0x00C0, 0x00C1, 0x00C4, 0x00C5, 0x00C6, 0x00C7, 0x00C8, 0x00C9, 0x00CA, 0x00CC] : List Addr).all
        (fun a => field State.reset (.wr a 1) (fun t => decide (t.video = State.reset.video)) == some false) = true ∧
      ([0x00D0, 0x00D1, 0x00D2, 0x00D3, 0x00D4, 0x00D8, 0x00D9] : List Addr).all
        (fun a => field State.reset (.wr a 1) (fun t => decide (t.dma = State.reset.dma)) == some false) = true ∧
      ([0x00DA, 0x00DB, 0x00DC] : List Addr).all
        (fun a => field State.reset (.wr a 1) (fun t => decide (t.sys = State.reset.sys)) == some false) = true ∧
      field { State.reset with dma := { State.reset.dma with drun := 2, dctl := 0x06 } } (.dctl 0x06 0) (fun t => t.dma.drun) = some 1 := by
  decide +kernel

/-- ClockEvents, CyclesCarryFourOrFiveTicks, ArbiterWaitIsBounded, OneFrameOfCycles: caught-up engines, at an even and an odd cycle. -/
theorem witness_caught_up :
    (TimingInv (at' 0 0 0) ∧ (at' 0 0 0).caughtUp) ∧ (TimingInv (at' 0 4 1) ∧ (at' 0 4 1).caughtUp) ∧
      (at' 0 4 1).cpuCycles % 2 = 1 ∧ 9 * (at' 0 4 1).cpuCycles / 2 ≤ (at' 0 4 1).pixelClock :=
  ⟨⟨timingInv_at (by decide) (by decide) (by decide), by unfold State.caughtUp; decide +kernel⟩,
    ⟨timingInv_at (by decide) (by decide) (by decide), by unfold State.caughtUp; decide +kernel⟩, by decide, by decide⟩

/-- OneFrameOfCycles: the last cycle of a frame, interrupts enabled. -/
theorem witness_frame : ∃ s : State, TimingInv s ∧ s.caughtUp ∧ s.video.vena.getLsbD 0 = true :=
  ⟨{ at' 261 427 25151 with video := { State.reset.video with vena := 1 } },
    timingInv_of_eq (timingInv_at (v := 261) (h := 427) (c := 25151) (by decide) (by decide) (by decide)) rfl rfl rfl (Nat.le_refl _),
    by unfold State.caughtUp; decide +kernel, by decide⟩

/-- TicksMoveTheCounters: the last tick of a frame, the tick that opens the early window, and a wrap of the phase between the two. -/
theorem witness_position :
    EngineInv (at' 261 431 25152) ∧ 32 = 32 * 2 ^ ((at' 261 431 25152).video.ntsize.toNat % 4) ∧
      32 = 32 * 2 ^ ((at' 261 431 25152).video.ntsize.toNat / 4 % 4) ∧ (at' 0 415 93).tim.hcount = 415 ∧
      (at' 0 423 94).tim.hcount ≠ 415 ∧ (at' 0 423 94).tim.hsub = 7 :=
  ⟨(timingInv_at (v := 261) (h := 431) (c := 25152) (by decide) (by decide) (by decide)).toEngineInv, by decide⟩

/-- ShiftAndLoad, TickMovesThePipeline: the ticks beside the one that opens the early window, a fetching and an idle phase. -/
theorem witness_pipeline :
    (at' 0 414 93).tim.hcount ≠ 415 ∧ (at' 0 415 93).tim.hcount = 415 ∧ (at' 0 416 93).tim.hcount ≠ 415 ∧ (at' 0 416 93).tim.hsub = 0 ∧
      (at' 0 416 93).vramBusy = true ∧ (at' 0 414 93).vramBusy = false ∧
      0 = (State.reset.video.ntbase.toNat * 64 +
        2 * (State.reset.tim.vtile.toNat * (32 * 2 ^ (State.reset.video.ntsize.toNat % 4)) + State.reset.tim.htile.toNat)) % 16384 ∧
      0 = (if State.reset.video.vctl.getLsbD 2 then 0 else State.reset.pipe.attrF.toNat / 8 % 2) * 4096 +
        State.reset.pipe.name.toNat * 16 + State.reset.tim.vsub.toNat * 2 := by decide

/-- VideoRegisterReads, EnableAndStatusWrites: a status with the flag and the request set, and a value 0. -/
theorem witness_status : ∃ s : State, StatusInv s ∧ s.irq = true ∧ (0 : Byte) = 0 :=
  ⟨{ State.reset with video := { State.reset.video with vsta := 1 }, irq := true }, ⟨by decide, by decide⟩, rfl, rfl⟩

/-- VerticalBlankWait: the longest wait, the last cycle with one, the first without. -/
theorem witness_blank :
    (TimingInv (at' 0 0 0) ∧ 23040 = 23040 - (at' 0 0 0).cpuCycles % 25152) ∧
      (TimingInv (at' 239 427 23039) ∧ 1 = 23040 - (at' 239 427 23039).cpuCycles % 25152) ∧
      TimingInv (at' 240 0 23040) ∧ 0 = 23040 - (at' 240 0 23040).cpuCycles % 25152 :=
  ⟨⟨timingInv_at (by decide) (by decide) (by decide), by decide⟩, ⟨timingInv_at (by decide) (by decide) (by decide), by decide⟩,
    timingInv_at (by decide) (by decide) (by decide), by decide⟩

/-- PalettePortWrites: the entry being drawn; the longest list, its last index; an entry not written. -/
theorem witness_palette :
    field State.reset (.wr 0x00CB 5) (fun t => (t.palIndex, State.reset.video.pala)) = some (0, 0) ∧
      (List.replicate 64 (7 : Byte)).length ≤ 64 ∧ 63 < (List.replicate 64 (7 : Byte)).length ∧ Region.vram ≠ Region.pal ∧
      ∀ j < [(7 : Byte)].length, 5 ≠ (State.reset.video.pala.toNat + j) % 64 := by decide +kernel

/-- DataPortReads, SpritePortWrites: the ranges of the sprite address meet at 158, 159, 160. -/
theorem witness_sprite_address :
    readBack { State.reset with video := { State.reset.video with spra := 159 }, mem := { State.reset.mem with spr := [(159, 3)] } } 0x00CD =
        some [3] ∧
      field { State.reset with video := { State.reset.video with spra := 158 } } (.wr 0x00CD 1) (fun t => t.video.spra) = some 159 ∧
      field { State.reset with video := { State.reset.video with spra := 159 } } (.wr 0x00CD 1) (fun t => t.video.spra) = some 0 ∧
      field { State.reset with video := { State.reset.video with spra := 160 } } (.wr 0x00CD 1) (fun t => t.video.spra) = some 1 := by
  decide +kernel

/-- WriteThenRead: the addresses beside the I/O window, a writable and a read-only window. -/
theorem witness_outside :
    ¬(0x00C0 ≤ (0x00BF : Addr).toNat ∧ (0x00BF : Addr).toNat ≤ 0x00FF) ∧ ¬(0x00C0 ≤ (0x0100 : Addr).toNat ∧ (0x0100 : Addr).toNat ≤ 0x00FF) ∧
      (State.reset.bind (addrWindow 0x00BF)).writable = true ∧ (State.reset.bind (addrWindow 0x8000)).writable = false := by decide

/-- MaskedTransfers, TransferEnd (its mode and flags those of the control byte): a masked transfer of one zero byte. -/
theorem witness_masked : ∃ (s : State) (v : Byte), TimingInv s ∧ dmaModeOf s.dma.dctl = .masked ∧
    ∀ j < transferSteps v,
      s.dmaRead (dmaFlagsOf s.dma.dctl).srcv (s.dma.dsrc + BitVec.ofInt 16 (j * transferIncrement s.video.ntsize (dmaFlagsOf s.dma.dctl))) = 0 :=
  ⟨{ State.reset with dma := { State.reset.dma with dctl := 0x02 }, mem := { State.reset.mem with ram0 := [(0, 0)] } }, 1,
    timingInv_of_eq (timingInv_at (v := 0) (h := 0) (c := 0) (by decide) (by decide) (by decide)) rfl rfl rfl (Nat.le_refl _), by decide +kernel,
    by decide +kernel⟩

/-- CopyAndFillSteps, PaletteAndSpriteSteps, DirectPixelSteps: a step at the first tick of a displayed line, which waits. -/
theorem witness_apa : ∃ (s : State) (bits sh : Nat) (ba : Addr), TimingInv s ∧ s.vramBusy = true ∧
    bits = (if s.video.vctl.getLsbD 6 then 4 else 2) ∧
    sh = (if s.video.vctl.getLsbD 6 then (1 - s.dma.ddst.toNat % 2) * 4 else (3 - s.dma.ddst.toNat % 4) * 2) ∧
    ba = BitVec.ofNat 16 (if s.video.vctl.getLsbD 6 then s.dma.ddst.toNat / 2 else s.dma.ddst.toNat / 4) :=
  ⟨at' 0 0 0, _, _, _, timingInv_at (by decide) (by decide) (by decide), rfl, rfl, rfl, rfl⟩

/-- FillTransfer and CopyTransfer: a control byte of each, with the bits that do not matter set. -/
theorem witness_transfers : ∃ s u : State, (TimingInv s ∧ s.dma.dctl &&& 0x77 = 0x41) ∧ TimingInv u ∧ u.dma.dctl &&& 0xF7 = 0x40 :=
  ⟨{ State.reset with dma := { State.reset.dma with dctl := 0xC9 } }, { State.reset with dma := { State.reset.dma with dctl := 0x48 } },
    ⟨timingInv_of_eq (timingInv_at (v := 0) (h := 0) (c := 0) (by decide) (by decide) (by decide)) rfl rfl rfl (Nat.le_refl _), by decide⟩,
    timingInv_of_eq (timingInv_at (v := 0) (h := 0) (c := 0) (by decide) (by decide) (by decide)) rfl rfl rfl (Nat.le_refl _), by decide⟩

/-- ArbiterWaitIsBounded, InterlockPolicies, FetchSlots: the port at the boundaries of its window. -/
theorem witness_port :
    (at' 0 319 71).vramBusy = true ∧ (at' 0 320 72).vramBusy = false ∧ (at' 0 415 93).vramBusy = false ∧ (at' 0 416 93).vramBusy = true ∧
      (at' 239 416 23033).vramBusy = true ∧ (at' 240 0 23040).vramBusy = false := by decide

/-- VisibleTicksDrawOnePixel: the last visible tick of the last visible line, and its neighbours. -/
theorem witness_visible :
    (EngineInv (at' 239 319 23015) ∧ Frame.wf (at' 239 319 23015).raster.fb) ∧
      ((at' 239 319 23015).tim.hcount < 320 ∧ (at' 239 319 23015).tim.vcount < 240) ∧ EngineInv (at' 239 320 23016) ∧
      ¬((at' 239 320 23016).tim.hcount < 320 ∧ (at' 239 320 23016).tim.vcount < 240) :=
  ⟨⟨(timingInv_at (by decide) (by decide) (by decide)).toEngineInv, by decide⟩, by decide,
    (timingInv_at (by decide) (by decide) (by decide)).toEngineInv, by decide⟩

/-- LineZeroLeftEdge, EarlyWindow: the tick before the early window of line 261. -/
theorem witness_early :
    EngineInv (at' 261 415 25149) ∧ (at' 261 415 25149).memWf ∧ (at' 261 415 25149).tim.vcount = 261 ∧ (at' 261 415 25149).tim.hcount = 415 :=
  ⟨(timingInv_at (by decide) (by decide) (by decide)).toEngineInv, by decide, rfl, rfl⟩

/-- FrameCadence: caught up inside a line and at its start, the passages of line 239 (one line on, or 262 lines on from line 240) and of
line 242 at their boundaries (R246). -/
theorem witness_cadence :
    (TimingInv (at' 239 427 23039) ∧ (at' 239 427 23039).caughtUp) ∧ (TimingInv (at' 240 0 23040) ∧ (at' 240 0 23040).caughtUp) ∧
      (239 + 1 + 22) / 262 - (239 + 22) / 262 = 1 ∧ (240 + 261 + 22) / 262 - (240 + 22) / 262 = 0 ∧
      (240 + 262 + 22) / 262 - (240 + 22) / 262 = 1 ∧ ¬((240 + 19) / 262 < (240 + 2 + 19) / 262) ∧ (240 + 19) / 262 < (240 + 3 + 19) / 262 :=
  ⟨⟨timingInv_at (by decide) (by decide) (by decide), rfl⟩, ⟨timingInv_at (by decide) (by decide) (by decide), rfl⟩, by decide⟩

/-- LineEnd: the flag with and without the request at index 431 of line 242 (R240, R305), the frame at index 431 of line 239 (R238), and
neither beside them. -/
theorem witness_line_end :
    (let s := { at' 242 431 23328 with video := { State.reset.video with vena := 1 } }; (tick s).video.vsta = 1 ∧ (tick s).irq = true) ∧
      (let s := { at' 242 431 23328 with video := { State.reset.video with vena := 0xFE } }; (tick s).video.vsta = 1 ∧ (tick s).irq = false) ∧
      (let s := { at' 241 431 23232 with video := { State.reset.video with vena := 1 } }; (tick s).video.vsta = 0 ∧ (tick s).irq = false) ∧
      (tick (at' 242 430 23328)).video.vsta = 0 ∧ (tick (at' 239 431 23040)).framesOut.length = 1 ∧
      (tick (at' 239 430 23040)).framesOut.length = 0 ∧ (tick (at' 240 431 23136)).framesOut.length = 0 := by decide +kernel

/-- R71, R184, R281, R282: the ticks of a step's write cycle see the byte just stored, those of its read cycle do not: of two cycles begun
at cycle 0, the ticks 0 to 3 and the ticks 4 to 8; a palette byte of `$30` is drawn as `$FFC00000`. -/
theorem test_store_before_ticks :
    field { at' 0 0 0 with
        dma := { State.reset.dma with dsrc := 0x10 }
        mem := { State.reset.mem with ram0 := [(0x10, 0x30)], vram := [(0, 0), (1, 0)], pal := [(0, 0)] } }
      (.dctl 0x04 0)
      (fun t => (fbRead t.raster.fb 24 35, fbRead t.raster.fb 24 36, fbRead t.raster.fb 24 40, t.raster.col)) =
    some (0xFF000000, 0xFFC00000, 0xFFC00000, 41) := by decide +kernel

/-- UnreadControlBits, TicksReadNoSystemMemory. -/
theorem witness_unread :
    (0xBB : Byte).getLsbD 2 = State.reset.video.vctl.getLsbD 2 ∧ (0xBB : Byte).getLsbD 6 = State.reset.video.vctl.getLsbD 6 ∧
      Region.ram0 ≠ Region.vram ∧ Region.spr ≠ Region.pal := by decide

end Sys2Proof.Tests
end

section
/-! Memory accesses: how an address is decoded (R51, R55) and what the four bank windows read and store (R56 to R58). -/

namespace Sys2Proof

/-! ### Addresses -/

/-- The I/O window in numbers (R51). -/
theorem inIoWindow_iff (a : Addr) : inIoWindow a = true ↔ 0x00C0 ≤ a.toNat ∧ a.toNat ≤ 0x00FF := by
  simp only [inIoWindow, Bool.and_eq_true, decide_eq_true_eq, Config.ioBase, Config.ioSize]
  omega

theorem decodeRead_of_io {a : Addr} (h : inIoWindow a = true) : decodeRead a = decodeIoRead (a.toNat - Config.ioBase) := if_pos h

theorem decodeWrite_of_io {a : Addr} (v : Byte) (h : inIoWindow a = true) :
    decodeWrite a v = decodeIoWrite (a.toNat - Config.ioBase) v := if_pos h

theorem addrWindow_toNat (a : Addr) : (addrWindow a).toNat = a.toNat / 0x4000 := by
  have ha := a.isLt
  simp only [addrWindow, BitVec.extractLsb'_toNat, Nat.shiftRight_eq_div_pow]
  omega

theorem addrOffset_eq_ofNat (a : Addr) : addrOffset a = BitVec.ofNat 14 a.toNat := by
  simp only [addrOffset, BitVec.extractLsb', Nat.shiftRight_zero]

/-- The quarter of the address space that each bank window takes (R55). -/
theorem addrWindow_cases (a : Addr) :
    ((addrWindow a).toNat = 0 ∧ a.toNat < 0x4000) ∨ ((addrWindow a).toNat = 1 ∧ ¬a.toNat < 0x4000 ∧ a.toNat < 0x8000) ∨
      ((addrWindow a).toNat = 2 ∧ ¬a.toNat < 0x4000 ∧ ¬a.toNat < 0x8000 ∧ a.toNat < 0xC000) ∨
      ((addrWindow a).toNat = 3 ∧ ¬a.toNat < 0x4000 ∧ ¬a.toNat < 0x8000 ∧ ¬a.toNat < 0xC000) := by
  have ha := a.isLt
  rw [addrWindow_toNat]
  omega

/-- A bank read, the window given by the range of the address (R55, R116). -/
theorem decodeBankRead_eq (a : Addr) :
    decodeBankRead a =
      (if a.toNat < 0x4000 then .rdMem0 (BitVec.ofNat 14 a.toNat)
      else if a.toNat < 0x8000 then .rdMem1 (BitVec.ofNat 14 a.toNat)
      else if a.toNat < 0xC000 then .rdMem2 (BitVec.ofNat 14 a.toNat) else .rdMem3 (BitVec.ofNat 14 a.toNat)) := by
  rcases addrWindow_cases a with ⟨hw, h0⟩ | ⟨hw, h0, h1⟩ | ⟨hw, h0, h1, h2⟩ | ⟨hw, h0, h1, h2⟩ <;>
    simp only [decodeBankRead, addrOffset_eq_ofNat, *, if_true, if_false]

/-- A bank write, the window given by the range of the address (R55, R116). -/
theorem decodeBankWrite_eq (a : Addr) (v : Byte) :
    decodeBankWrite a v =
      (if a.toNat < 0x4000 then .wrMem0 (BitVec.ofNat 14 a.toNat) v
      else if a.toNat < 0x8000 then .wrMem1 (BitVec.ofNat 14 a.toNat) v
      else if a.toNat < 0xC000 then .wrMem2 (BitVec.ofNat 14 a.toNat) v else .wrMem3 (BitVec.ofNat 14 a.toNat) v) := by
  rcases addrWindow_cases a with ⟨hw, h0⟩ | ⟨hw, h0, h1⟩ | ⟨hw, h0, h1, h2⟩ | ⟨hw, h0, h1, h2⟩ <;>
    simp only [decodeBankWrite, addrOffset_eq_ofNat, *, if_true, if_false]

/-! ### The I/O window reaches no bank window -/

/-- The accesses of the four bank windows (R55). -/
def Instr.isBankAccess : Instr → Bool
  | .rdMem0 _ | .rdMem1 _ | .rdMem2 _ | .rdMem3 _ => true
  | .wrMem0 _ _ | .wrMem1 _ _ | .wrMem2 _ _ | .wrMem3 _ _ => true
  | _ => false

theorem Instr.ne_of_isBankAccess {i j : Instr} (hi : i.isBankAccess = false) (hj : j.isBankAccess = true) : i ≠ j := by
  rintro rfl
  exact Bool.false_ne_true (hi.symm.trans hj)

/-- Every row of the I/O map of reads is a register, an audio stub or unmapped (R80). -/
theorem isBankAccess_decodeIoRead (r : Nat) : (decodeIoRead r).isBankAccess = false := by
  unfold decodeIoRead
  split
  case h_27 => split_ifs <;> rfl
  all_goals rfl

/-- Every row of the I/O map of writes is a register, an audio stub or unmapped (R80). -/
theorem isBankAccess_decodeIoWrite (r : Nat) (v : Byte) : (decodeIoWrite r v).isBankAccess = false := by
  unfold decodeIoWrite
  split
  case h_27 => split_ifs <;> rfl
  all_goals rfl

/-- Settles O3: the test for the I/O window comes first; outside it, the range of the address gives the bank window. -/
theorem addressesAreDecodedInOrder : Obligations.AddressesAreDecodedInOrder := by
  intro a v
  refine ⟨fun hio => ?_, fun hio => ?_⟩
  · have h := (inIoWindow_iff a).mpr hio
    rw [decodeRead_of_io h, decodeWrite_of_io v h]
    have hr := fun j => Instr.ne_of_isBankAccess (j := j) (isBankAccess_decodeIoRead (a.toNat - Config.ioBase))
    have hw := fun j => Instr.ne_of_isBankAccess (j := j) (isBankAccess_decodeIoWrite (a.toNat - Config.ioBase) v)
    exact ⟨rfl, rfl, fun off => ⟨hr _ rfl, hr _ rfl, hr _ rfl, hr _ rfl, hw _ rfl, hw _ rfl, hw _ rfl, hw _ rfl⟩⟩
  · have h : inIoWindow a = false := Bool.eq_false_iff.mpr fun h => hio ((inIoWindow_iff a).mp h)
    rw [decodeRead_of_not_io h, decodeWrite_of_not_io v h]
    exact ⟨decodeBankRead_eq a, decodeBankWrite_eq a v⟩

namespace Machine

open Sys2Proof.Config (Region)

/-! ### Bindings -/

@[simp] theorem addrWindow_windowAddr (w : BitVec 2) (off : BitVec 14) : addrWindow (windowAddr w off) = w := addrWindow_append w off
@[simp] theorem addrOffset_windowAddr (w : BitVec 2) (off : BitVec 14) : addrOffset (windowAddr w off) = off := addrOffset_append w off

theorem State.bind_zero (s : State) : s.bind 0 = { region := some .ram0, page := 0, writable := true } := rfl
theorem State.bind_one (s : State) : s.bind 1 = { region := some .ram1, page := 0, writable := true } := rfl
theorem State.bind_two (s : State) : s.bind 2 = bindSwitched s.sys.bank2 0 := rfl
theorem State.bind_three (s : State) : s.bind 3 = bindSwitched s.sys.bank3 1 := rfl

/-- The three bindings of a switchable window (R56): ROM for 0, cartridge RAM for 1, open bus for every other value. -/
theorem bindSwitched_eq (v : Byte) {p : Nat} (hp : p < 2) :
    bindSwitched v p =
      if v = 0 then { region := some .rom, page := p, writable := false }
      else if v = 1 then { region := some .cart, page := p, writable := true }
      else { region := none, page := 0, writable := false } := by
  have h0 : (v.toNat = 0 ∧ p < Config.romPages) ↔ v = 0 := by simp [BitVec.toNat_eq, Config.romPages, hp]
  have h1 : (v.toNat = 1 ∧ p < Config.cartPages) ↔ v = 1 := by simp [BitVec.toNat_eq, Config.cartPages, hp]
  simp only [bindSwitched, h0, h1]

/-! ### What a window reads -/

/-- A binding, read at an offset (R57). -/
def Binding.read (b : Binding) (s : State) (off : BitVec 14) : Byte := b.region.elim 0xFF fun r => s.peek r (bankCell b off)

theorem State.bankRead_windowAddr (s : State) (w : BitVec 2) (off : BitVec 14) :
    s.bankRead (windowAddr w off) = (s.bind w).read s off := by
  simp only [State.bankRead, Binding.read, addrWindow_windowAddr, addrOffset_windowAddr]
  cases (s.bind w).region <;> rfl

theorem Binding.read_switched (s : State) (v : Byte) {p : Nat} (hp : p < 2) (off : BitVec 14) :
    (bindSwitched v p).read s off =
      if v = 0 then s.peek .rom (p * 16384 + off.toNat) else if v = 1 then s.peek .cart (p * 16384 + off.toNat) else 0xFF := by
  rw [bindSwitched_eq v hp]
  split_ifs <;> rfl

theorem State.bankRead_window0 (s : State) (off : BitVec 14) : s.bankRead (windowAddr 0 off) = s.peek .ram0 off.toNat := by
  rw [bankRead_windowAddr, bind_zero]
  simp [Binding.read, bankCell]

theorem State.bankRead_window1 (s : State) (off : BitVec 14) : s.bankRead (windowAddr 1 off) = s.peek .ram1 off.toNat := by
  rw [bankRead_windowAddr, bind_one]
  simp [Binding.read, bankCell]

theorem State.bankRead_window2 (s : State) (off : BitVec 14) :
    s.bankRead (windowAddr 2 off) =
      if s.sys.bank2 = 0 then s.peek .rom off.toNat else if s.sys.bank2 = 1 then s.peek .cart off.toNat else 0xFF := by
  rw [bankRead_windowAddr, bind_two, Binding.read_switched s _ Nat.zero_lt_two, Nat.zero_mul, Nat.zero_add]

theorem State.bankRead_window3 (s : State) (off : BitVec 14) :
    s.bankRead (windowAddr 3 off) =
      if s.sys.bank3 = 0 then s.peek .rom (16384 + off.toNat) else if s.sys.bank3 = 1 then s.peek .cart (16384 + off.toNat)
      else 0xFF := by
  rw [bankRead_windowAddr, bind_three, Binding.read_switched s _ Nat.one_lt_two, Nat.one_mul]

/-- All a bank read does: it returns the byte of its cell (R57). -/
theorem bankAccessRead_returns {w : BitVec 2} {off : BitVec 14} {s : State} {b : Byte} (h : s.bankRead (windowAddr w off) = b) :
    bankAccessRead w off s = .next (s.returned b) := by
  rw [bankAccessRead, h]

/-! ### What a window stores -/

/-- The cell that a write through a binding reaches, if it reaches one (R58). -/
def Binding.cell (b : Binding) (off : BitVec 14) : Option (Region × Nat) :=
  if b.writable then b.region.map fun r => (r, bankCell b off) else none

theorem State.dmaCell_windowAddr (s : State) (w : BitVec 2) (off : BitVec 14) :
    s.dmaCell false (windowAddr w off) = (s.bind w).cell off := by
  simp [State.dmaCell, Binding.cell]

theorem Binding.cell_switched (v : Byte) {p : Nat} (hp : p < 2) (off : BitVec 14) :
    (bindSwitched v p).cell off = if v = 1 then some (.cart, p * 16384 + off.toNat) else none := by
  rw [bindSwitched_eq v hp]
  by_cases h0 : v = 0
  · subst h0; rfl
  · rw [if_neg h0]
    split_ifs <;> rfl

theorem State.dmaCell_window0 (s : State) (off : BitVec 14) : s.dmaCell false (windowAddr 0 off) = some (.ram0, off.toNat) := by
  rw [dmaCell_windowAddr, bind_zero]
  simp [Binding.cell, bankCell]

theorem State.dmaCell_window1 (s : State) (off : BitVec 14) : s.dmaCell false (windowAddr 1 off) = some (.ram1, off.toNat) := by
  rw [dmaCell_windowAddr, bind_one]
  simp [Binding.cell, bankCell]

theorem State.dmaCell_window2 (s : State) (off : BitVec 14) :
    s.dmaCell false (windowAddr 2 off) = if s.sys.bank2 = 1 then some (.cart, off.toNat) else none := by
  rw [dmaCell_windowAddr, bind_two, Binding.cell_switched _ Nat.zero_lt_two, Nat.zero_mul, Nat.zero_add]

theorem State.dmaCell_window3 (s : State) (off : BitVec 14) :
    s.dmaCell false (windowAddr 3 off) = if s.sys.bank3 = 1 then some (.cart, 16384 + off.toNat) else none := by
  rw [dmaCell_windowAddr, bind_three, Binding.cell_switched _ Nat.one_lt_two, Nat.one_mul]

/-- A banked write is a store in the cell that a DMA write of the system space has (R58, R183). -/
theorem State.bankWrite_eq_store (s : State) (a : Addr) (v : Byte) : s.bankWrite a v = s.store (s.dmaCell false a) v :=
  s.dmaWrite_eq_store false a v

/-- All a bank write does: it answers, changes the memories only, and of them only its cell (R58). -/
theorem bankAccessWrite_stores {w : BitVec 2} {off : BitVec 14} {s : State} {cell : Option (Region × Nat)} (v : Byte)
    (hc : s.dmaCell false (windowAddr w off) = cell) :
    ∃ t, bankAccessWrite w off v s = .next t ∧ t = s.setMem t.mem ∧ StoresOnly cell v s t := by
  refine ⟨_, rfl, s.bankWrite_eq_setMem _ v, ?_⟩
  rw [State.bankWrite_eq_store, hc]
  exact s.storesOnly_store cell v

/-! ### The operations -/

section Exec
variable (off : BitVec 14) (v : Byte) (s : State)
theorem exec_rdMem0 : exec (.rdMem0 off) s = bankAccessRead 0 off s := rfl
theorem exec_rdMem1 : exec (.rdMem1 off) s = bankAccessRead 1 off s := rfl
theorem exec_rdMem2 : exec (.rdMem2 off) s = bankAccessRead 2 off s := rfl
theorem exec_rdMem3 : exec (.rdMem3 off) s = bankAccessRead 3 off s := rfl
theorem exec_wrMem0 : exec (.wrMem0 off v) s = bankAccessWrite 0 off v s := rfl
theorem exec_wrMem1 : exec (.wrMem1 off v) s = bankAccessWrite 1 off v s := rfl
theorem exec_wrMem2 : exec (.wrMem2 off v) s = bankAccessWrite 2 off v s := rfl
theorem exec_wrMem3 : exec (.wrMem3 off v) s = bankAccessWrite 3 off v s := rfl
end Exec

/-- Settles O38: each read returns the byte of its window's binding, each write stores in the cell of its window's binding. -/
theorem bankWindowAccesses : Obligations.BankWindowAccesses := by
  intro off v s
  rw [exec_rdMem0, exec_rdMem1, exec_rdMem2, exec_rdMem3, exec_wrMem0, exec_wrMem1, exec_wrMem2, exec_wrMem3]
  exact ⟨bankAccessRead_returns (s.bankRead_window0 off), bankAccessRead_returns (s.bankRead_window1 off),
    bankAccessRead_returns (s.bankRead_window2 off), bankAccessRead_returns (s.bankRead_window3 off),
    bankAccessWrite_stores v (s.dmaCell_window0 off), bankAccessWrite_stores v (s.dmaCell_window1 off),
    bankAccessWrite_stores v (s.dmaCell_window2 off), bankAccessWrite_stores v (s.dmaCell_window3 off)⟩

end Machine
end Sys2Proof
end

section
/-! The bus router outside the I/O window: every access there is an access of a bank window, and what a write leaves for a read of
the same address (R110, R111, R115). -/

namespace Sys2Proof.Machine

/-- An address is a window number and an offset in the window (R55). -/
theorem windowAddr_addrWindow_addrOffset (a : Addr) : windowAddr (addrWindow a) (addrOffset a) = a :=
  (BitVec.extractLsb'_append_extractLsb'_eq_extractLsb' (by rfl)).trans BitVec.extractLsb'_eq_self

theorem window_cases (w : BitVec 2) : w = 0 ∨ w = 1 ∨ w = 2 ∨ w = 3 := by decide +revert

/-! ### Accesses outside the I/O window -/

/-- A read decoded to a bank window returns the banked byte (R110). -/
theorem exec_decodeBankRead (a : Addr) (s : State) : exec (decodeBankRead a) s = .next (s.returned (s.bankRead a)) := by
  suffices h : exec (decodeBankRead a) s = bankAccessRead (addrWindow a) (addrOffset a) s by
    rw [h, bankAccessRead, windowAddr_addrWindow_addrOffset]
  unfold decodeBankRead
  rcases window_cases (addrWindow a) with h | h | h | h <;> rw [h]
  · exact exec_rdMem0 _ s
  · exact exec_rdMem1 _ s
  · exact exec_rdMem2 _ s
  · exact exec_rdMem3 _ s

/-- A write decoded to a bank window is a banked write (R111). -/
theorem exec_decodeBankWrite (a : Addr) (v : Byte) (s : State) : exec (decodeBankWrite a v) s = .next (s.bankWrite a v) := by
  suffices h : exec (decodeBankWrite a v) s = bankAccessWrite (addrWindow a) (addrOffset a) v s by
    rw [h, bankAccessWrite, windowAddr_addrWindow_addrOffset]
  unfold decodeBankWrite
  rcases window_cases (addrWindow a) with h | h | h | h <;> rw [h]
  · exact exec_wrMem0 _ v s
  · exact exec_wrMem1 _ v s
  · exact exec_wrMem2 _ v s
  · exact exec_wrMem3 _ v s

/-! ### A banked read after a banked write -/

/-- A switchable window bound to open bus is read-only (R56). -/
theorem bindSwitched_openBus_readOnly {v : Byte} {p : Nat} (hp : p < 2) (h : (bindSwitched v p).region = none) :
    (bindSwitched v p).writable = false := by
  revert h
  rw [bindSwitched_eq v hp]
  split_ifs
  · exact fun _ => rfl
  · exact fun h => nomatch h
  · exact fun _ => rfl

/-- No window is bound to open bus and writable (R56). -/
theorem State.bind_openBus_readOnly {s : State} {w : BitVec 2} (h : (s.bind w).region = none) : (s.bind w).writable = false := by
  rcases window_cases w with rfl | rfl | rfl | rfl
  · exact nomatch h
  · exact nomatch h
  · exact bindSwitched_openBus_readOnly Nat.zero_lt_two h
  · exact bindSwitched_openBus_readOnly Nat.one_lt_two h

/-- A banked read is a read through the binding of the address's window (R57). -/
theorem State.bankRead_eq_read (s : State) (a : Addr) : s.bankRead a = (s.bind (addrWindow a)).read s (addrOffset a) := by
  rw [← State.bankRead_windowAddr, windowAddr_addrWindow_addrOffset]

/-- A banked write binds no window anew: it leaves the bank registers alone. -/
theorem State.bind_bankWrite (s : State) (a : Addr) (v : Byte) (w : BitVec 2) : (s.bankWrite a v).bind w = s.bind w :=
  State.bind_congr (by rw [s.bankWrite_eq_setMem]; rfl) w

/-- The round trip of the banked address space (R115). -/
theorem State.bankRead_bankWrite_same (s : State) (a : Addr) (v : Byte) :
    (s.bankWrite a v).bankRead a = if (s.bind (addrWindow a)).writable then v else s.bankRead a := by
  rcases s.bankWrite_cases a v with ⟨r, hr, hw, hstore⟩ | ⟨hdropped, hsame⟩
  · rw [if_pos hw, State.bankRead_eq_read, State.bind_bankWrite, hstore, Binding.read, hr, Option.elim_some, State.peek_poke,
      if_pos ⟨rfl, rfl⟩]
  · have hw : (s.bind (addrWindow a)).writable = false := hdropped.elim State.bind_openBus_readOnly id
    rw [hsame, hw, if_neg Bool.false_ne_true]

/-- Settles O39: outside the I/O window both accesses are banked, and a banked read after a banked write at the same address
returns the byte written where the window is writable, else the prior byte. -/
theorem writeThenRead : Obligations.WriteThenRead := by
  intro a v s hio
  have h : inIoWindow a = false := Bool.eq_false_iff.mpr fun h => hio ((inIoWindow_iff a).mp h)
  refine ⟨s.bankWrite a v, ?_, ?_⟩
  · rw [decodeWrite_of_not_io v h, exec_decodeBankWrite]
  · rw [decodeRead_of_not_io h, exec_decodeBankRead, State.bankRead_bankWrite_same]

end Sys2Proof.Machine
end

section
/-! What a register access of the I/O window leaves (R110 to R112): reads without a side effect, stores in a register, and the reads and
writes of each register as one equation. -/

namespace Sys2Proof.Machine

/-! ### The shapes -/

/-- A read without a side effect: the ticks due, then the byte. -/
theorem ioRead_returns {value : State → Byte} {s : State} {b : Byte} (h : value (advance s) = b) :
    ioRead value id s = .next ((advance s).returned b) := by
  rw [ioRead_eq, h, id]

/-- A write: the ticks due, then the effect, then no tick, as the effect charges no cycle. -/
theorem ioWrite_effect {effect : State → State} (h : ∀ u, EngineSame u (effect u)) {s t : State} (ht : effect (advance s) = t) :
    ioWrite effect s = .next t := by
  rw [ioWrite_eq (fun u => (h u).cpuCycles) (fun u => (h u).pixelClock), ht]

theorem ioWrite_setDma {g : State → DmaRegs} {s : State} {d : DmaRegs} (h : g (advance s) = d) :
    ioWrite (fun u => u.setDma (g u)) s = .next ((advance s).setDma d) :=
  ioWrite_effect (fun _ => engineSame_setDma _ _) (by rw [h])

theorem ioWrite_setSys {g : State → SysRegs} {s : State} {y : SysRegs} (h : g (advance s) = y) :
    ioWrite (fun u => u.setSys (g u)) s = .next ((advance s).setSys y) :=
  ioWrite_effect (fun _ => engineSame_setSys _ _) (by rw [h])

/-- A discarded write: the ticks due. -/
theorem ioWrite_id (s : State) : ioWrite id s = .next (advance s) := ioWrite_effect EngineSame.refl rfl

/-! ### Bytes of the 16-bit counters (R60), and narrow registers -/

/-- A byte stored in a narrower register is reduced to its width. -/
theorem setWidth_eq_ofNat_mod (v : Byte) (n : Nat) : v.setWidth n = BitVec.ofNat n (v.toNat % 2 ^ n) :=
  BitVec.eq_of_toNat_eq (by simp)

theorem toNat_append_add {n m : Nat} (x : BitVec n) (y : BitVec m) : (x ++ y).toNat = x.toNat * 2 ^ m + y.toNat := by
  rw [BitVec.toNat_append, ← Nat.shiftLeft_add_eq_or_of_lt y.isLt, Nat.shiftLeft_eq]

theorem lowByte_eq (c : BitVec 16) : lowByte c = BitVec.ofNat 8 (c.toNat % 256) :=
  BitVec.eq_of_toNat_eq (by simp [lowByte])

theorem highByte_eq (c : BitVec 16) : highByte c = BitVec.ofNat 8 (c.toNat / 256) :=
  BitVec.eq_of_toNat_eq (by simp [highByte, Nat.shiftRight_eq_div_pow])

theorem withLow_eq (c : BitVec 16) (v : Byte) : withLow c v = BitVec.ofNat 16 (c.toNat / 256 * 256 + v.toNat) := by
  have hc := c.isLt
  have hv := v.isLt
  apply BitVec.eq_of_toNat_eq
  simp only [withLow, toNat_append_add, BitVec.extractLsb'_toNat, Nat.shiftRight_eq_div_pow, BitVec.toNat_ofNat]
  omega

theorem withHigh_eq (c : BitVec 16) (v : Byte) : withHigh c v = BitVec.ofNat 16 (v.toNat * 256 + c.toNat % 256) := by
  have hv := v.isLt
  apply BitVec.eq_of_toNat_eq
  simp only [withHigh, toNat_append_add, BitVec.extractLsb'_toNat, Nat.shiftRight_zero, BitVec.toNat_ofNat]
  omega

/-! ### Reads of the video registers -/

/-- The only status bytes with no bit but the flag (R83). -/
theorem status_cases (b : Byte) (h : b &&& 0xFE = 0) : b = 0 ∨ b = 1 := by
  revert b; decide

/-- The ticks due keep the status byte at the flag or nothing (R83, R240). -/
theorem advance_vsta_cases {s : State} (h : StatusInv s) : (advance s).video.vsta = 0 ∨ (advance s).video.vsta = 1 := by
  rcases status_cases _ h.flags with h0 | h0 <;> rcases (engineFrame_advance s).vsta with hv | hv <;> rw [hv, h0] <;> decide

section VideoReads
variable (s : State)
theorem exec_rdVctl : exec .rdVctl s = .next ((advance s).returned s.video.vctl) :=
  show execRdVctl s = _ from ioRead_returns (advance_vctl s)
theorem exec_rdVena : exec .rdVena s = .next ((advance s).returned s.video.vena) :=
  show execRdVena s = _ from ioRead_returns (advance_vena s)
theorem exec_rdVsta : exec .rdVsta s = .next ((advance s).returned (advance s).video.vsta) :=
  show execRdVsta s = _ from ioRead_returns rfl
theorem exec_rdScrh : exec .rdScrh s = .next ((advance s).returned s.video.scrh) :=
  show execRdScrh s = _ from ioRead_returns (advance_scrh s)
theorem exec_rdScrhf : exec .rdScrhf s = .next ((advance s).returned (BitVec.ofNat 8 s.video.scrhf.toNat)) :=
  show execRdScrhf s = _ from ioRead_returns (by rw [advance_scrhf, BitVec.ofNat_toNat])
theorem exec_rdScrv : exec .rdScrv s = .next ((advance s).returned s.video.scrv) :=
  show execRdScrv s = _ from ioRead_returns (advance_scrv s)
theorem exec_rdScrvf : exec .rdScrvf s = .next ((advance s).returned (BitVec.ofNat 8 s.video.scrvf.toNat)) :=
  show execRdScrvf s = _ from ioRead_returns (by rw [advance_scrvf, BitVec.ofNat_toNat])
theorem exec_rdNtsize : exec .rdNtsize s = .next ((advance s).returned s.video.ntsize) :=
  show execRdNtsize s = _ from ioRead_returns (advance_ntsize s)
theorem exec_rdNtbase : exec .rdNtbase s = .next ((advance s).returned s.video.ntbase) :=
  show execRdNtbase s = _ from ioRead_returns (advance_ntbase s)
theorem exec_rdPala : exec .rdPala s = .next ((advance s).returned (BitVec.ofNat 8 s.video.pala.toNat)) :=
  show execRdPala s = _ from ioRead_returns (by rw [advance_pala, BitVec.ofNat_toNat])
theorem exec_rdSpra : exec .rdSpra s = .next ((advance s).returned s.video.spra) :=
  show execRdSpra s = _ from ioRead_returns (advance_spra s)
end VideoReads

/-- Settles O24: each read returns its register, and of these registers ticks write the status byte only. -/
theorem videoRegisterReads : Obligations.VideoRegisterReads := fun s =>
  ⟨exec_rdVctl s, exec_rdVena s, exec_rdVsta s, advance_vsta_cases, exec_rdScrh s, exec_rdScrhf s, exec_rdScrv s, exec_rdScrvf s,
    exec_rdNtsize s, exec_rdNtbase s, exec_rdPala s, exec_rdSpra s⟩

/-! ### Reads of the DMA, banking and keyboard column registers, and of nothing -/

section SystemReads
variable (s : State)
theorem exec_rdDsrcl : exec .rdDsrcl s = .next ((advance s).returned (BitVec.ofNat 8 (s.dma.dsrc.toNat % 256))) :=
  show execRdDsrcl s = _ from ioRead_returns (by rw [advance_dma, lowByte_eq])
theorem exec_rdDsrch : exec .rdDsrch s = .next ((advance s).returned (BitVec.ofNat 8 (s.dma.dsrc.toNat / 256))) :=
  show execRdDsrch s = _ from ioRead_returns (by rw [advance_dma, highByte_eq])
theorem exec_rdDdstl : exec .rdDdstl s = .next ((advance s).returned (BitVec.ofNat 8 (s.dma.ddst.toNat % 256))) :=
  show execRdDdstl s = _ from ioRead_returns (by rw [advance_dma, lowByte_eq])
theorem exec_rdDdsth : exec .rdDdsth s = .next ((advance s).returned (BitVec.ofNat 8 (s.dma.ddst.toNat / 256))) :=
  show execRdDdsth s = _ from ioRead_returns (by rw [advance_dma, highByte_eq])
theorem exec_rdDctl : exec .rdDctl s = .next ((advance s).returned s.dma.dctl) :=
  show execRdDctl s = _ from ioRead_returns (by rw [advance_dma])
theorem exec_rdDrun : exec .rdDrun s = .next ((advance s).returned s.dma.drun) :=
  show execRdDrun s = _ from ioRead_returns (by rw [advance_dma])
theorem exec_rdDfill : exec .rdDfill s = .next ((advance s).returned s.dma.dfill) :=
  show execRdDfill s = _ from ioRead_returns (by rw [advance_dma])
theorem exec_rdDpage : exec .rdDpage s = .next ((advance s).returned s.dma.dpage) :=
  show execRdDpage s = _ from ioRead_returns (by rw [advance_dma])
theorem exec_rdBank2 : exec .rdBank2 s = .next ((advance s).returned s.sys.bank2) :=
  show execRdBank2 s = _ from ioRead_returns (by rw [advance_sys])
theorem exec_rdBank3 : exec .rdBank3 s = .next ((advance s).returned s.sys.bank3) :=
  show execRdBank3 s = _ from ioRead_returns (by rw [advance_sys])
theorem exec_rdKcol : exec .rdKcol s = .next ((advance s).returned (BitVec.ofNat 8 s.sys.kcol.toNat)) :=
  show execRdKcol s = _ from ioRead_returns (by rw [advance_sys, BitVec.ofNat_toNat])
end SystemReads

/-- Settles O25: each read returns its register, which no tick moves. -/
theorem dmaAndSystemRegisterReads : Obligations.DmaAndSystemRegisterReads := fun s =>
  ⟨exec_rdDsrcl s, exec_rdDsrch s, exec_rdDdstl s, exec_rdDdsth s, exec_rdDctl s, exec_rdDfill s, exec_rdDpage s, exec_rdBank2 s,
    exec_rdBank3 s, exec_rdKcol s⟩

/-- Settles O27: six reads whose value does not depend on the state. -/
theorem openBusReads : Obligations.OpenBusReads := fun s m n =>
  ⟨show execRdVwait s = _ from ioRead_returns rfl, show execRdAudio m s = _ from ioRead_returns rfl,
    show execRdUnmappedCE n s = _ from ioRead_returns rfl, show execRdUnmappedD6 n s = _ from ioRead_returns rfl,
    show execRdUnmappedDE n s = _ from ioRead_returns rfl, show execRdUnmappedF0 m s = _ from ioRead_returns rfl⟩

/-! ### Writes of the DMA and keyboard column registers, and of nothing -/

section Writes
variable (v : Byte) (s : State)
theorem exec_wrDsrcl : exec (.wrDsrcl v) s =
    .next ((advance s).setDma { s.dma with dsrc := BitVec.ofNat 16 (s.dma.dsrc.toNat / 256 * 256 + v.toNat) }) :=
  show execWrDsrcl v s = _ from ioWrite_setDma (by rw [advance_dma, withLow_eq])
theorem exec_wrDsrch : exec (.wrDsrch v) s =
    .next ((advance s).setDma { s.dma with dsrc := BitVec.ofNat 16 (v.toNat * 256 + s.dma.dsrc.toNat % 256) }) :=
  show execWrDsrch v s = _ from ioWrite_setDma (by rw [advance_dma, withHigh_eq])
theorem exec_wrDdstl : exec (.wrDdstl v) s =
    .next ((advance s).setDma { s.dma with ddst := BitVec.ofNat 16 (s.dma.ddst.toNat / 256 * 256 + v.toNat) }) :=
  show execWrDdstl v s = _ from ioWrite_setDma (by rw [advance_dma, withLow_eq])
theorem exec_wrDdsth : exec (.wrDdsth v) s =
    .next ((advance s).setDma { s.dma with ddst := BitVec.ofNat 16 (v.toNat * 256 + s.dma.ddst.toNat % 256) }) :=
  show execWrDdsth v s = _ from ioWrite_setDma (by rw [advance_dma, withHigh_eq])
theorem exec_wrDctl : exec (.wrDctl v) s = .next ((advance s).setDma { s.dma with dctl := v }) :=
  show execWrDctl v s = _ from ioWrite_setDma (by rw [advance_dma])
theorem exec_wrDfill : exec (.wrDfill v) s = .next ((advance s).setDma { s.dma with dfill := v }) :=
  show execWrDfill v s = _ from ioWrite_setDma (by rw [advance_dma])
theorem exec_wrDpage : exec (.wrDpage v) s = .next ((advance s).setDma { s.dma with dpage := v }) :=
  show execWrDpage v s = _ from ioWrite_setDma (by rw [advance_dma])
theorem exec_wrKcol : exec (.wrKcol v) s = .next ((advance s).setSys { s.sys with kcol := BitVec.ofNat 4 (v.toNat % 16) }) :=
  show execWrKcol v s = _ from ioWrite_setSys (by rw [advance_sys, setWidth_eq_ofNat_mod]; rfl)
end Writes

/-- Settles O34: a counter is its two bytes, of which a write replaces one. -/
theorem counterByteWrites : Obligations.CounterByteWrites := fun v s =>
  ⟨exec_wrDsrcl v s, exec_wrDsrch v s, exec_wrDdstl v s, exec_wrDdsth v s⟩

/-- Settles O35: the read that follows a write of `DCTL` runs no tick that could touch it. -/
theorem controlAndLatchWrites : Obligations.ControlAndLatchWrites := by
  refine ⟨fun v s => ⟨exec_wrDctl v s, exec_wrDfill v s, exec_wrDpage v s, exec_wrKcol v s⟩, fun v s => ?_⟩
  refine ⟨_, _, exec_wrDctl v s, exec_rdDctl _, ?_⟩
  rw [returned_readsOut, advance_readsOut, State.setDma_readsOut, advance_readsOut, State.setDma_dma]

/-- Settles O37: six writes without an effect. -/
theorem discardedWrites : Obligations.DiscardedWrites := fun v s m n =>
  ⟨show execWrKdata v s = _ from ioWrite_id s, show execWrAudio m v s = _ from ioWrite_id s,
    show execWrUnmappedCE n v s = _ from ioWrite_id s, show execWrUnmappedD6 n v s = _ from ioWrite_id s,
    show execWrUnmappedDE n v s = _ from ioWrite_id s, show execWrUnmappedF0 m v s = _ from ioWrite_id s⟩

end Sys2Proof.Machine
end

section
/-! The write of `VWAIT` (R127, R312): the wait ends with the cycle that brings the engine to line 240. -/

namespace Sys2Proof.Machine

/-- A frame is 25152 cycles (R356). -/
theorem tickGoal_mod_frameTicks (c : Nat) : tickGoal c % frameTicks = tickGoal (c % 25152) := by
  have hlt : c % 25152 * 9 / 2 < 113184 := by omega
  have hc : c * 9 / 2 = c % 25152 * 9 / 2 + 113184 * (c / 25152) := by omega
  show c * 9 / 2 % 113184 = c % 25152 * 9 / 2
  rw [hc, Nat.add_mul_mod_self_left, Nat.mod_eq_of_lt hlt]

/-- In a caught-up engine, the vertical blank in terms of the cycle count: the last 2112 of the 25152 cycles of a frame (R356). -/
theorem TimingInv.vblank_iff_cycle {s : State} (h : TimingInv s) (hc : s.caughtUp) :
    s.tim.vblank = true ↔ 23040 ≤ s.cpuCycles % 25152 := by
  rw [h.toEngineInv.vblank_iff, h.position_of_caughtUp hc, tickGoal_mod_frameTicks]
  simp only [tickGoal, Config.clkNum, Config.clkDen, Config.hTotal, Config.vVisEnd]
  omega

/-- A charged cycle keeps the engine caught up. -/
theorem caughtUp_iterate_cycle {s : State} (h : TimingInv s) (hc : s.caughtUp) (n : Nat) : (cycle^[n] s).caughtUp := by
  cases n with
  | zero => exact hc
  | succ n =>
    rw [Function.iterate_succ_apply']
    exact caughtUp_cycle (timingInv_iterate_cycle h n).clock

/-- The vertical blank after `j` charged cycles. -/
theorem vblank_iterate_cycle {s : State} (h : TimingInv s) (hc : s.caughtUp) (j : Nat) :
    (cycle^[j] s).tim.vblank = true ↔ 23040 ≤ (s.cpuCycles + j) % 25152 := by
  rw [(timingInv_iterate_cycle h j).vblank_iff_cycle (caughtUp_iterate_cycle h hc j), (iterate_cycle_clocks j s).1]

/-- From a caught-up engine the wait loop of `VWAIT` runs the cycles left to cycle 23040 of the frame, none in the blank. -/
theorem stallWhile_vblank {s : State} (h : TimingInv s) (hc : s.caughtUp) {k : Nat} (hk : k = 23040 - s.cpuCycles % 25152) :
    stallWhile (fun u => !u.tim.vblank) stallBound s = some (cycle^[k] s) ∧ (cycle^[k] s).tim.vblank = true ∧
      ∀ j < k, (cycle^[j] s).tim.vblank = false := by
  have before : ∀ j < k, (cycle^[j] s).tim.vblank = false := fun j hj => by
    rw [Bool.eq_false_iff, Ne, vblank_iterate_cycle h hc]; omega
  have reached : (cycle^[k] s).tim.vblank = true := by rw [vblank_iterate_cycle h hc]; omega
  have bound : k ≤ stallBound := by simp only [stallBound, Config.hTotal, Config.vTotal, Config.clkNum, Config.clkDen]; omega
  refine ⟨?_, reached, before⟩
  obtain ⟨j, hjk, e, hj, -⟩ := stallWhile_le (busy := fun u => !u.tim.vblank) bound (by rw [reached]; rfl)
  rcases Nat.lt_or_eq_of_le hjk with hlt | rfl
  · simp [before j hlt] at hj
  · exact e

/-- Settles O31: the ticks due, then exactly the cycles up to the blank, whose frame is the engine's. -/
theorem verticalBlankWait : Obligations.VerticalBlankWait := by
  intro v s k h hk
  have ha : TimingInv (advance s) := timingInv_advance h
  have hca : (advance s).caughtUp := caughtUp_advance h.clock
  obtain ⟨hstall, hblank, hbefore⟩ := stallWhile_vblank ha hca (k := k) (by rw [advance_cpuCycles]; exact hk)
  have ht : TimingInv (cycle^[k] (advance s)) := timingInv_iterate_cycle ha k
  have hct := caughtUp_iterate_cycle ha hca k
  have hline : 240 ≤ (cycle^[k] (advance s)).tim.vcount := by
    rw [← Config.vVisEnd, ← ht.vborder, ← ht.vblank]; exact hblank
  have hclock : (cycle^[k] (advance s)).cpuCycles = s.cpuCycles + k := by
    rw [(iterate_cycle_clocks k _).1, advance_cpuCycles]
  have frame := engineFrame_iterate_cycle k (advance s)
  refine ⟨_, show execWrVwait v s = _ from ioWriteStall_eq hstall hct.ge, rfl, hblank, hbefore, hline, hct, hclock,
    frame.mem.trans (advance_mem s), frame.dma.trans (advance_dma s), frame.sys.trans (advance_sys s),
    frame.readsOut.trans (advance_readsOut s), frame.trace.trans (advance_trace s), ?_⟩
  rw [frame.video, addCycles_video, advance_video]

end Sys2Proof.Machine
end

section
/-! The data ports of palette and sprite memory (R143, R144, R147, R148), and the writes of `VENA` and `VSTA` (R124, R126). -/

namespace Sys2Proof.Machine

open Sys2Proof.Config (Region)

/-! ### The address registers move on -/

theorem stepPala_eq (s : State) : stepPala s = s.setVideo { s.video with pala := s.video.pala + 1 } := by
  have e : BitVec.ofNat 6 ((s.video.pala.toNat + 1) % Config.palSize) = s.video.pala + 1 := BitVec.eq_of_toNat_eq (by simp)
  rw [stepPala, e]

/-- The sprite address after an access, by its range (R147). -/
def nextSpra (a : Byte) : Byte :=
  BitVec.ofNat 8 (if a.toNat < 159 then a.toNat + 1 else if a.toNat = 159 then 0 else a.toNat + 1 - 160)

/-- The successor modulo 160: from 160 to 255 it comes back to 1 to 96. -/
theorem nextSpra_eq (a : Byte) : nextSpra a = BitVec.ofNat 8 ((a.toNat + 1) % Config.sprSize) := by
  have ha := a.isLt
  rw [nextSpra]
  congr 1
  simp only [Config.sprSize]
  split_ifs <;> omega

theorem stepSpra_eq (s : State) : stepSpra s = s.setVideo { s.video with spra := nextSpra s.video.spra } := by
  rw [stepSpra, nextSpra_eq]

/-- A palette address is an index of the palette (R53). -/
theorem pala_mod_palSize (a : BitVec 6) : a.toNat % Config.palSize = a.toNat := Nat.mod_eq_of_lt a.isLt

/-! ### Reads -/

/-- Settles O28: the byte at the address register before it moves on. -/
theorem dataPortReads : Obligations.DataPortReads := by
  intro s
  constructor
  · show execRdPald s = _
    rw [execRdPald, ioRead_eq, stepPala_eq, State.palRead, pala_mod_palSize, advance_peek, advance_pala]
  · show execRdSprd s = _
    rw [execRdSprd, ioRead_eq, stepSpra_eq, State.sprRead, advance_peek, advance_spra]
    rfl

/-! ### Writes of the palette port -/

theorem exec_wrPald (v : Byte) (s : State) : exec (.wrPald v) s =
    .next (((advance s).poke .pal s.video.pala.toNat v).setVideo { (advance s).video with pala := s.video.pala + 1 }) :=
  show execWrPald v s = _ from
    ioWrite_effect (effect := fun u => stepPala (u.palWrite u.video.pala.toNat v))
      (fun _ => (engineSame_setMem _ _).trans (engineSame_setVideo _ _))
      (by rw [stepPala_eq, State.palWrite, pala_mod_palSize, State.poke_video, advance_pala])

/-- The memories and the palette address after one write of the palette port. -/
theorem wrPald_next {v : Byte} {s u : State} (h : exec (.wrPald v) s = .next u) :
    u.video.pala = s.video.pala + 1 ∧ StoresOnly (some (.pal, s.video.pala.toNat)) v s u := by
  rw [exec_wrPald] at h
  cases h
  refine ⟨rfl, fun r a => ?_⟩
  rw [← advance_peek s r a]
  exact State.storesOnly_store (advance s) (some (.pal, s.video.pala.toNat)) v r a

/-- What the bytes `l`, written one after another to the palette port from `s`, leave in `t` (R144). -/
structure PaletteFilled (l : List Byte) (s t : State) : Prop where
  pala : t.video.pala.toNat = (s.video.pala.toNat + l.length) % 64
  filled : ∀ (j : Nat) (h : j < l.length), t.peek .pal ((s.video.pala.toNat + j) % 64) = l[j]
  kept : ∀ (r : Region) (a : Nat), (r ≠ .pal ∨ ∀ j < l.length, a ≠ (s.video.pala.toNat + j) % 64) → t.peek r a = s.peek r a

theorem PaletteFilled.nil (s : State) : PaletteFilled [] s s where
  pala := (Nat.mod_eq_of_lt s.video.pala.isLt).symm
  filled := fun _ h => absurd h (Nat.not_lt_zero _)
  kept := fun _ _ _ => rfl

/-- One write, and then at most 63 more, none of which comes back to its entry. -/
theorem PaletteFilled.cons {v : Byte} {l : List Byte} {s u t : State} (hl : l.length < 64)
    (hpala : u.video.pala = s.video.pala + 1) (hstore : StoresOnly (some (.pal, s.video.pala.toNat)) v s u)
    (h : PaletteFilled l u t) : PaletteFilled (v :: l) s t := by
  have hA := s.video.pala.isLt
  have hu : u.video.pala.toNat = (s.video.pala.toNat + 1) % 64 := by rw [hpala, BitVec.toNat_add]; rfl
  obtain ⟨pala, filled, kept⟩ := h
  rw [hu] at pala filled kept
  have entry : ∀ j, ((s.video.pala.toNat + 1) % 64 + j) % 64 = (s.video.pala.toNat + (j + 1)) % 64 := fun j => by omega
  refine ⟨?_, fun j hj => ?_, fun r a ha => ?_⟩
  · rw [pala, entry, List.length_cons]
  · cases j with
    | zero =>
      rw [Nat.add_zero, Nat.mod_eq_of_lt hA, kept .pal _ (.inr fun j hj => by omega), hstore, if_pos rfl, List.getElem_cons_zero]
    | succ j => rw [← entry, filled j (Nat.lt_of_succ_lt_succ hj), List.getElem_cons_succ]
  · have tail : r ≠ .pal ∨ ∀ j < l.length, a ≠ ((s.video.pala.toNat + 1) % 64 + j) % 64 :=
      ha.imp_right fun ha j hj => by rw [entry]; exact ha (j + 1) (Nat.succ_lt_succ hj)
    have head : (some (Region.pal, s.video.pala.toNat)) ≠ some (r, a) := by
      rintro ⟨⟩
      rcases ha with ha | ha
      · exact ha rfl
      · exact ha 0 (Nat.succ_pos _) (Nat.mod_eq_of_lt hA).symm
    rw [kept r a tail, hstore, if_neg head]

/-- At most 64 writes of the palette port, one after another. -/
theorem execAll_wrPald (l : List Byte) (s : State) (hl : l.length ≤ 64) :
    ∃ t, execAll (l.map Instr.wrPald) s = some t ∧ PaletteFilled l s t := by
  induction l generalizing s with
  | nil => exact ⟨s, rfl, .nil s⟩
  | cons v l ih =>
    have hnext := exec_wrPald v s
    obtain ⟨hpala, hstore⟩ := wrPald_next hnext
    obtain ⟨t, ht, hfilled⟩ := ih _ (Nat.le_of_succ_le hl)
    exact ⟨t, by rw [List.map_cons, execAll_cons hnext, ht], hfilled.cons hl hpala hstore⟩

/-- Settles O32: one write exactly, the colour that follows from the byte stored, and many by induction. -/
theorem palettePortWrites : Obligations.PalettePortWrites := by
  refine ⟨exec_wrPald, fun v s => ?_, fun l s hl => ?_⟩
  · refine ⟨_, exec_wrPald v s, fun hindex => ?_⟩
    obtain ⟨-, hstore⟩ := wrPald_next (exec_wrPald v s)
    rw [State.pixelColour, hindex, State.palRead, pala_mod_palSize, hstore, if_pos rfl]
  · obtain ⟨t, ht, hpala, hfilled, hkept⟩ := execAll_wrPald l s hl
    exact ⟨t, ht, hpala, hfilled, hkept⟩

/-! ### Writes of the sprite port -/

theorem exec_wrSprd (v : Byte) (s : State) : exec (.wrSprd v) s =
    .next (((advance s).store (if s.video.spra.toNat < 160 then some (.spr, s.video.spra.toNat) else none) v).setVideo
      { (advance s).video with spra := nextSpra s.video.spra }) :=
  show execWrSprd v s = _ from
    ioWrite_effect (effect := fun u => stepSpra (u.sprWrite u.video.spra.toNat v))
      (fun _ => (engineSame_sprWrite _ _ _).trans (engineSame_setVideo _ _))
      (by rw [stepSpra_eq, State.sprWrite_eq_store, State.store_video, advance_spra])

/-- A store changes the memories only. -/
theorem State.store_eq_setMem (s : State) (c : Option (Region × Nat)) (v : Byte) : s.store c v = s.setMem (s.store c v).mem := by
  cases c <;> rfl

/-- Ticks and an update that no step of a tick reads may be exchanged, if it leaves the clocks alone too. -/
theorem Unread.ticks {g : State → State} (hg : Unread g) (hset : ∀ s c p, g (s.setClocks c p) = (g s).setClocks c p)
    (hc : ∀ s, (g s).cpuCycles = s.cpuCycles) (hp : ∀ s, (g s).pixelClock = s.pixelClock) (n : Nat) (s : State) :
    ticks n (g s) = g (ticks n s) := by
  induction n generalizing s with
  | zero => rfl
  | succ n ih =>
    have h : countedTick (g s) = g (countedTick s) := by
      simp only [countedTick, hg.tick s, hset, hc, hp]
    rw [Machine.ticks, Machine.ticks, h, ih]

/-- No step of a tick reads a memory other than VRAM and the palette (R113, R148). -/
theorem unread_poke {r : Region} (hv : r ≠ .vram) (hp : r ≠ .pal) (a : Nat) (v : Byte) : Unread (fun s => s.poke r a v) := by
  constructor
  case vram => intro s b; rw [State.peek_poke, if_neg fun h => hv h.1.symm]
  case pal => intro s b; rw [State.peek_poke, if_neg fun h => hp h.1.symm]
  case raiseVsync =>
    intro s
    unfold raiseVsync
    dsimp only
    rw [apply_ite (fun u : State => u.poke r a v)]
    rfl
  all_goals intros; rfl

theorem ticks_poke {r : Region} (hv : r ≠ .vram) (hp : r ≠ .pal) (n a : Nat) (v : Byte) (s : State) :
    ticks n (s.poke r a v) = (ticks n s).poke r a v :=
  (unread_poke hv hp a v).ticks (fun _ _ _ => rfl) (fun _ => rfl) (fun _ => rfl) n s

/-- Settles O33: a store in the cell of the sprite address, if it is one; and ticks are exchanged with it. -/
theorem spritePortWrites : Obligations.SpritePortWrites := by
  refine ⟨fun v s => ⟨_, exec_wrSprd v s, fun r a => ?_, ?_⟩, fun s a n v => ?_⟩
  · rw [← advance_peek s r a]
    exact (advance s).storesOnly_store _ v r a
  · rw [State.store_eq_setMem]; rfl
  · rw [ticks_poke (by decide) (by decide)]; rfl

/-! ### Writes of the enable and status bytes -/

theorem exec_wrVena (v : Byte) (s : State) : exec (.wrVena v) s = .next ((advance s).setVideo { (advance s).video with vena := v }) :=
  show execWrVena v s = _ from ioWrite_effect (fun _ => engineSame_setVideo _ _) rfl

/-- Acknowledging in one equation: the request stays with its flag (R126, R307). -/
theorem ackStatus_eq (v : Byte) (s : State) :
    ackStatus v s = (s.setVideo { s.video with vsta := s.video.vsta &&& ~~~v }).setIrq
      (s.irq && (s.video.vsta &&& ~~~v).getLsbD 0) := by
  unfold ackStatus
  dsimp only
  split
  · rename_i h
    rw [State.setVideo_video] at h
    rw [h, Bool.and_true]; rfl
  · rename_i h
    rw [State.setVideo_video, Bool.not_eq_true] at h
    rw [h, Bool.and_false]

theorem exec_wrVsta (v : Byte) (s : State) : exec (.wrVsta v) s = .next (ackStatus v (advance s)) :=
  show execWrVsta v s = _ from ioWrite_effect (engineSame_ackStatus v) rfl

/-- Acknowledging nothing (R126). -/
theorem ackStatus_zero {s : State} (h : s.irq = true → s.video.vsta.getLsbD 0 = true) : ackStatus 0 s = s := by
  have hv : s.video.vsta &&& ~~~(0 : Byte) = s.video.vsta := BitVec.and_allOnes
  have hi : (s.irq && s.video.vsta.getLsbD 0) = s.irq := by
    cases hq : s.irq with
    | false => rfl
    | true => rw [h hq]; rfl
  rw [ackStatus_eq, hv, hi]
  rfl

/-- The ticks due raise no request without its flag (R240, R305). -/
theorem advance_request {s : State} (h : StatusInv s) (hi : (advance s).irq = true) : (advance s).video.vsta.getLsbD 0 = true := by
  have frame := engineFrame_advance s
  rcases frame.irqFlag hi with hs | hflag
  · rcases frame.vsta with e | e <;> rw [e]
    · exact h.request hs
    · simp
  · exact hflag

/-- Settles O30: a write of `VENA` is a plain store; one of `VSTA` is the acknowledgement, bit by bit. -/
theorem enableAndStatusWrites : Obligations.EnableAndStatusWrites := by
  refine ⟨fun v s => ⟨_, exec_wrVena v s, rfl, rfl, rfl⟩, fun v s => ⟨_, exec_wrVsta v s, ?_, fun k hk => ?_, ?_, fun h hv => ?_⟩⟩
  · rw [ackStatus_eq]; rfl
  · rw [ackStatus_eq]; simp [hk]
  · rw [ackStatus_eq]; rfl
  · rw [hv]; exact ackStatus_zero (advance_request h)

end Sys2Proof.Machine
end

section
/-! The bank registers (R166, R168): what the switchable windows read and store, for the CPU and for the DMA engine alike. -/

namespace Sys2Proof.Machine

open Sys2Proof.Config (Region)

theorem exec_wrBank2 (v : Byte) (s : State) : exec (.wrBank2 v) s = .next ((advance s).setSys { s.sys with bank2 := v }) :=
  show execWrBank2 v s = _ from ioWrite_setSys (by rw [advance_sys])

theorem exec_wrBank3 (v : Byte) (s : State) : exec (.wrBank3 v) s = .next ((advance s).setSys { s.sys with bank3 := v }) :=
  show execWrBank3 v s = _ from ioWrite_setSys (by rw [advance_sys])

theorem State.bankWrite_window2 (t : State) (off : BitVec 14) (b : Byte) :
    t.bankWrite (windowAddr 2 off) b = if t.sys.bank2 = 1 then t.poke .cart off.toNat b else t := by
  rw [State.bankWrite_eq_store, State.dmaCell_window2]
  split_ifs <;> rfl

theorem State.bankWrite_window3 (t : State) (off : BitVec 14) (b : Byte) :
    t.bankWrite (windowAddr 3 off) b = if t.sys.bank3 = 1 then t.poke .cart (16384 + off.toNat) b else t := by
  rw [State.bankWrite_eq_store, State.dmaCell_window3]
  split_ifs <;> rfl

/-- An access of a bank window is the same for the CPU and for the DMA engine (R57, R58, R183). -/
theorem windowAccesses {w : BitVec 2} {off : BitVec 14} {b x : Byte} {t u : State} (hread : t.bankRead (windowAddr w off) = x)
    (hwrite : t.bankWrite (windowAddr w off) b = u) :
    bankAccessRead w off t = .next (t.returned x) ∧ bankAccessWrite w off b t = .next u ∧ t.dmaRead false (windowAddr w off) = x ∧
      t.dmaWrite false (windowAddr w off) b = u :=
  ⟨bankAccessRead_returns hread, by rw [bankAccessWrite, hwrite], hread, hwrite⟩

/-- Settles O36: the window is bound anew by the byte stored, and every access goes through that binding. -/
theorem bankWritesRebind : Obligations.BankWritesRebind := by
  intro v s
  refine ⟨⟨_, exec_wrBank2 v s, rfl, fun off b => ?_⟩, ⟨_, exec_wrBank3 v s, rfl, fun off b => ?_⟩⟩
  · rw [exec_rdMem2, exec_wrMem2]
    exact windowAccesses (State.bankRead_window2 _ off) (State.bankWrite_window2 _ off b)
  · rw [exec_rdMem3, exec_wrMem3]
    exact windowAccesses (State.bankRead_window3 _ off) (State.bankWrite_window3 _ off b)

end Sys2Proof.Machine
end

section
/-! The run counter (R159): it counts a transfer down to 0 before the write of `DRUN` is over, and no other event writes it. -/

namespace Sys2Proof.Machine

open Sys2Proof.Config (Interlock)

/-! ### A transfer counts down -/

/-- A step takes one from the run counter (R186). -/
theorem dmaStep_drun {pol : Interlock} {i : Nat} {s t : State} (h : dmaStep pol i s = some t) : t.dma.drun = s.dma.drun - 1 := by
  obtain ⟨rd, wr, he, hr, hw⟩ := dmaStep_eq pol i s
  rw [he] at h
  obtain ⟨k, rfl, -, -⟩ := dmaStepWith_eq_some h
  obtain ⟨-, hdrun, -, -⟩ := grantedStep_counters (p := stepPlan (dmaModeOf s.dma.dctl) (dmaFlagsOf s.dma.dctl))
    (f := dmaFlagsOf s.dma.dctl) (phaseFrame_read hr) (phaseFrame_write hw) (cycle^[k] s)
  rw [hdrun, (engineFrame_iterate_cycle k s).dma, addCycles_dma]

/-- `n` steps take `n` from the run counter. -/
theorem dmaLoop_drun {pol : Interlock} {n i : Nat} {s t : State} (h : dmaLoop pol n i s = some t) :
    t.dma.drun = s.dma.drun - BitVec.ofNat 8 n := by
  induction n generalizing i s with
  | zero => cases h; exact (BitVec.sub_zero _).symm
  | succ n ih =>
    obtain ⟨u, hu, ht⟩ := Option.bind_eq_some_iff.mp h
    rw [ih ht, dmaStep_drun hu, BitVec.ofNat_add]
    bv_omega

/-- The steps of a transfer are its run count modulo 256 (R96). -/
theorem ofNat_stepCount (v : Byte) : BitVec.ofNat 8 (stepCount v) = v := by
  unfold stepCount
  split
  · bv_omega
  · exact (BitVec.ofNat_toNat 8 v).trans (BitVec.setWidth_eq v)

theorem wrDrun_drun {v : Byte} {s t : State} (h : exec (.wrDrun v) s = .next t) : t.dma.drun = 0 := by
  obtain ⟨u, hu, rfl⟩ := wrDrun_next h
  rw [advance_dma, dmaLoop_drun hu, State.setDma_dma, ofNat_stepCount]
  exact BitVec.sub_self v

/-! ### The other events -/

theorem wrVwait_dma {v : Byte} {s t : State} (h : exec (.wrVwait v) s = .next t) : t.dma = s.dma := by
  obtain ⟨k, -, rfl, -, -⟩ := wrVwait_next h
  rw [advance_dma, (engineFrame_iterate_cycle k _).dma, addCycles_dma, advance_dma]

/-- No read of the I/O window writes a DMA register. -/
theorem exec_decodeIoRead_dma (r : Nat) (s : State) : ∃ t, exec (decodeIoRead r) s = .next t ∧ t.dma = s.dma := by
  unfold decodeIoRead
  split
  case h_27 => split_ifs <;> exact ⟨_, rfl, advance_dma s⟩
  all_goals exact ⟨_, rfl, advance_dma s⟩

/-- The run counter after a write whose effect leaves it alone. -/
theorem advance_effect_drun {s u : State} (h : u.dma.drun = (advance s).dma.drun) : (advance u).dma.drun = s.dma.drun := by
  rw [advance_dma, h, advance_dma]

/-- A write of the I/O window stalls, at `VWAIT` or at `DRUN`, or it leaves the run counter alone. -/
theorem exec_decodeIoWrite_drun (r : Nat) (v : Byte) (s : State) :
    (decodeIoWrite r v = .wrVwait v ∨ decodeIoWrite r v = .wrDrun v) ∨
      ∃ t, exec (decodeIoWrite r v) s = .next t ∧ t.dma.drun = s.dma.drun := by
  unfold decodeIoWrite
  split
  case h_3 => exact .inr ⟨_, exec_wrVsta v s, by rw [ackStatus_eq]; exact congrArg DmaRegs.drun (advance_dma s)⟩
  case h_4 => exact .inl (.inl rfl)
  case h_14 =>
    refine .inr ⟨_, exec_wrSprd v s, ?_⟩
    rw [State.setVideo_dma, State.store_dma, advance_dma]
  case h_20 => exact .inl (.inr rfl)
  case h_27 => split_ifs <;> exact .inr ⟨_, rfl, advance_effect_drun rfl⟩
  all_goals exact .inr ⟨_, rfl, advance_effect_drun rfl⟩

/-- A bus read leaves the run counter alone. -/
theorem exec_decodeRead_drun {a : Addr} {s t : State} (h : exec (decodeRead a) s = .next t) : t.dma.drun = s.dma.drun := by
  cases hio : inIoWindow a with
  | true =>
    obtain ⟨u, hu, hdma⟩ := exec_decodeIoRead_dma (a.toNat - Config.ioBase) s
    rw [decodeRead_of_io hio, hu] at h
    cases h
    rw [hdma]
  | false =>
    rw [decodeRead_of_not_io hio, exec_decodeBankRead] at h
    cases h
    rfl

/-- A bus write leaves the run counter alone, or at 0. -/
theorem exec_decodeWrite_drun {a : Addr} {v : Byte} {s t : State} (h : exec (decodeWrite a v) s = .next t) :
    t.dma.drun = s.dma.drun ∨ t.dma.drun = 0 := by
  cases hio : inIoWindow a with
  | true =>
    rw [decodeWrite_of_io v hio] at h
    rcases exec_decodeIoWrite_drun (a.toNat - Config.ioBase) v s with (hi | hi) | ⟨u, hu, hdrun⟩
    · rw [hi] at h; exact .inl (by rw [wrVwait_dma h])
    · rw [hi] at h; exact .inr (wrDrun_drun h)
    · rw [hu] at h; cases h; exact .inl hdrun
  | false =>
    rw [decodeWrite_of_not_io v hio, exec_decodeBankWrite] at h
    cases h
    rw [State.bankWrite_eq_setMem]
    exact .inl rfl

/-- Settles O14: the event that writes the run counter is a write of `DRUN`, whose transfer counts it down to 0. -/
theorem runCountReadsZero : Obligations.RunCountReadsZero := by
  refine ⟨exec_rdDrun, rfl, fun s t hs hevents h => ?_⟩
  obtain ⟨w, rest, i, hw, hd, hx⟩ := step_eq_next h
  have hevent : w.isEvent = true := hevents w (by simp [hw])
  have hzero : (s.setTrace rest).dma.drun = 0 := hs
  cases w with
  | cyc n => cases hd; cases hx; exact hzero
  | sync => cases hd; cases hx; rw [advance_dma]; exact hzero
  | rd a => cases hd; rw [exec_decodeRead_drun hx]; exact hzero
  | wr a v => cases hd; exact (exec_decodeWrite_drun hx).elim (·.trans hzero) id
  | dctl | fetchSlot | loadSlot | hcount | vcount => cases hevent

end Sys2Proof.Machine
end

section
/-! Transfer steps: the counters and latches of the engine do not depend on a memory, the wait of a step ends, and what a granted step
leaves behind (R71, R184 to R187). -/

namespace Sys2Proof.Machine

open Sys2Proof.Config (Region)

/-! ### The engine's registers run alike, whatever the memories hold -/

/-- The timing registers, the VDP registers, the request and the number of frames handed out are the same. -/
structure EngineAgree (s u : State) : Prop where
  tim : u.tim = s.tim
  video : u.video = s.video
  irq : u.irq = s.irq
  frames : u.framesOut.length = s.framesOut.length

theorem EngineAgree.ntWidth {s u : State} (h : EngineAgree s u) : u.ntWidth = s.ntWidth := by rw [State.ntWidth, h.video]; rfl
theorem EngineAgree.ntHeight {s u : State} (h : EngineAgree s u) : u.ntHeight = s.ntHeight := by rw [State.ntHeight, h.video]; rfl

theorem EngineAgree.pixelStage {s u : State} (h : EngineAgree s u) : EngineAgree (pixelStage s) (pixelStage u) where
  tim := by rw [pixelStage_tim, pixelStage_tim, h.tim]
  video := by rw [pixelStage_video, pixelStage_video, h.video]
  irq := by rw [pixelStage_irq, pixelStage_irq, h.irq]
  frames := by rw [pixelStage_framesOut, pixelStage_framesOut, h.frames]

theorem EngineAgree.hAdvance {s u : State} (h : EngineAgree s u) : EngineAgree (hAdvance s) (hAdvance u) where
  tim := by rw [hAdvance_tim, hAdvance_tim, h.tim, h.video, h.ntWidth, h.ntHeight]
  video := by rw [hAdvance_video, hAdvance_video, h.video]
  irq := by rw [hAdvance_irq, hAdvance_irq, h.irq]
  frames := by rw [hAdvance_framesOut, hAdvance_framesOut, h.frames]

theorem EngineAgree.lineEnd {s u : State} (h : EngineAgree s u) : EngineAgree (lineEnd s) (lineEnd u) where
  tim := by rw [lineEnd_tim, lineEnd_tim, h.tim, h.video, h.ntHeight]
  video := by rw [lineEnd_video, lineEnd_video, h.tim, h.video]
  irq := by rw [lineEnd_irq, lineEnd_irq, h.tim, h.video, h.irq]
  frames := by
    rw [lineEnd_framesOut, lineEnd_framesOut, h.tim, apply_ite List.length, apply_ite List.length, List.length_append,
      List.length_append, h.frames]
    rfl

theorem EngineAgree.tick {s u : State} (h : EngineAgree s u) : EngineAgree (tick s) (tick u) := by
  by_cases hl : s.tim.hcount + 1 = Config.hTotal
  · rw [tick_of_eq hl, tick_of_eq (by rw [h.tim]; exact hl)]
    exact h.pixelStage.hAdvance.lineEnd
  · rw [tick_of_lt hl, tick_of_lt (by rw [h.tim]; exact hl)]
    exact h.pixelStage.hAdvance

theorem EngineAgree.ticks {s u : State} (h : EngineAgree s u) (n : Nat) : EngineAgree (ticks n s) (ticks n u) := by
  induction n generalizing s u with
  | zero => exact h
  | succ n ih => exact ih { h.tick with }

/-- A charged cycle runs as many ticks in both, if the clocks agree too. -/
theorem EngineAgree.cycle {s u : State} (h : EngineAgree s u) (hc : u.cpuCycles = s.cpuCycles) (hp : u.pixelClock = s.pixelClock) :
    EngineAgree (cycle s) (cycle u) := by
  have due : tickGoal (u.addCycles 1).cpuCycles - (u.addCycles 1).pixelClock =
      tickGoal (s.addCycles 1).cpuCycles - (s.addCycles 1).pixelClock := by
    rw [addCycles_cpuCycles, addCycles_cpuCycles, addCycles_pixelClock, addCycles_pixelClock, hc, hp]
  rw [Machine.cycle, Machine.cycle, advance, advance, due]
  have charged : EngineAgree (s.addCycles 1) (u.addCycles 1) := { h with }
  exact charged.ticks _

/-- A store is no part of the engine. -/
theorem engineAgree_store (s : State) (c : Option (Region × Nat)) (v : Byte) : EngineAgree s (s.store c v) := by
  rw [State.store_eq_setMem]
  exact ⟨rfl, rfl, rfl, rfl⟩

/-- The engine's registers after a cycle that a store precedes are those of the cycle alone. -/
theorem engineAgree_cycle_store (s : State) (c : Option (Region × Nat)) (v : Byte) : EngineAgree (cycle s) (cycle (s.store c v)) := by
  refine (engineAgree_store s c v).cycle ?_ ?_ <;> rw [State.store_eq_setMem] <;> rfl

/-! ### The wait of a step ends -/

/-- The scheduler leaves the VRAM port alone in vertical blank (R36). -/
theorem EngineInv.vramBusy_of_vblank {s : State} (h : EngineInv s) (hb : s.tim.vblank = true) : s.vramBusy = false := by
  rw [h.vblank, h.vborder] at hb
  rw [State.vramBusy, Bool.and_eq_false_iff]
  exact .inr (Bool.eq_false_iff.mpr fun hv => absurd (h.vbusy.mp hv) (Nat.not_lt.mpr hb))

/-- From every place in the frame the VRAM port becomes free within the bound of a stall (R313, R314): in vertical blank at the latest. -/
theorem vramBusy_ends {s : State} (h : TimingInv s) : ∃ k ≤ stallBound, (cycle^[k] s).vramBusy = false := by
  have hc := timingInv_cycle h
  obtain ⟨-, hblank, -⟩ := stallWhile_vblank hc (caughtUp_cycle h.clock) rfl
  refine ⟨23040 - (cycle s).cpuCycles % 25152 + 1, ?_, ?_⟩
  · simp only [stallBound, Config.hTotal, Config.vTotal, Config.clkNum, Config.clkDen]; omega
  · rw [Function.iterate_succ_apply]
    exact (timingInv_iterate_cycle hc _).vramBusy_of_vblank hblank

/-- The arbiter always grants a step (R185): after the least number of cycles that leaves the port free, at once where VRAM is not
touched. -/
theorem arbitrate_grants {s : State} (h : TimingInv s) (touches : Bool) (i : Nat) :
    ∃ k, arbitrate Config.dmaInterlock touches i s = some (cycle^[k] s) ∧ (touches = false → k = 0) ∧
      (∀ j < k, (cycle^[j] s).vramBusy = true) ∧ (touches = true → (cycle^[k] s).vramBusy = false) := by
  cases touches with
  | false => exact ⟨0, rfl, fun _ => rfl, fun j hj => absurd hj (Nat.not_lt_zero j), fun ht => absurd ht Bool.false_ne_true⟩
  | true =>
    obtain ⟨n, hn, hfree⟩ := vramBusy_ends h
    obtain ⟨k, -, hk, hend, hbusy⟩ := stallWhile_le (busy := State.vramBusy) hn hfree
    exact ⟨k, (if_pos ⟨rfl, .inl rfl⟩).trans hk, fun hf => absurd hf.symm Bool.false_ne_true, hbusy, fun _ => hend⟩

/-! ### What a step leaves behind -/

/-- All that `StepDone` says of a step follows from its waits and its whole next state. -/
theorem stepDone_of_eq {touches : Bool} {d : DmaRegs} {cell : Option (Region × Nat)} {v : Byte} {s : State} {k : Nat} (h : TimingInv s)
    (hnone : touches = false → k = 0) (hbusy : ∀ j < k, (cycle^[j] s).vramBusy = true)
    (hfree : touches = true → (cycle^[k] s).vramBusy = false) :
    StepDone touches d cell v s ((cycle ((cycle^[k + 1] s).store cell v)).setDma d) := by
  have frame := engineFrame_iterate_cycle (k + 1) s
  have agree := engineAgree_cycle_store (cycle^[k + 1] s) cell v
  rw [← Function.iterate_succ_apply' cycle (k + 1) s] at agree
  have store := State.store_eq_setMem (cycle^[k + 1] s) cell v
  have clocks : ((cycle^[k + 1] s).store cell v).cpuCycles = s.cpuCycles + (k + 1) := by
    rw [store, State.setMem_cpuCycles, (iterate_cycle_clocks (k + 1) s).1]
  have before : ∀ r a, (cycle^[k + 1] s).peek r a = s.peek r a := fun r a => by rw [State.peek, frame.mem]; rfl
  exact
    { waits := ⟨k, hnone, hbusy, hfree, by rw [State.setDma_cpuCycles, cycle_cpuCycles, clocks]; omega,
        ⟨agree.tim, congrArg _ agree.video, agree.irq, agree.frames⟩, rfl⟩
      clock := caughtUp_cycle (by rw [store]; exact (timingInv_iterate_cycle h (k + 1)).clock)
      dma := rfl
      stores := fun r a => by
        rw [← before]
        exact (cycle_peek _ r a).trans (State.storesOnly_store _ cell v r a)
      video := by rw [State.setDma_video, cycle_video, store, State.setMem_video, frame.video, addCycles_video]
      sys := by rw [State.setDma_sys, cycle_sys, store, State.setMem_sys, frame.sys, addCycles_sys]
      readsOut := by rw [State.setDma_readsOut, cycle_readsOut, store, State.setMem_readsOut, frame.readsOut, addCycles_readsOut]
      trace := by rw [State.setDma_trace, cycle_trace, store, State.setMem_trace, frame.trace, addCycles_trace] }

/-- The DMA registers after the counters of a step have moved (R182, R186, R196). -/
def DmaRegs.counted (p : StepPlan) (inc : BitVec 16) (d : DmaRegs) : DmaRegs :=
  { d with
    dsrc := if p.readsSrc then d.dsrc + inc else d.dsrc
    ddst := d.ddst + (if p.stride4 then 4 else inc)
    drun := d.drun - 1 }

theorem stepCounters_setDma (p : StepPlan) (f : DmaFlags) (s : State) (d : DmaRegs) :
    stepCounters p f (s.setDma d) = s.setDma (d.counted p (s.dmaInc f)) := rfl

/-- A row of the name table in bytes (R84, R182). -/
theorem State.two_mul_ntWidth (s : State) : 2 * s.ntWidth = 64 * 2 ^ (s.video.ntsize.toNat % 4) := by
  rw [State.ntWidth, Nat.shiftLeft_eq, BitVec.extractLsb'_toNat, Nat.shiftRight_zero, ← Nat.mul_assoc]

/-- The increment of a transfer is an integer, taken modulo 65536 (R182). -/
theorem State.dmaInc_eq_transferIncrement (s : State) (f : DmaFlags) :
    s.dmaInc f = BitVec.ofInt 16 (transferIncrement s.video.ntsize f) := by
  have row : (64 * 2 ^ (s.video.ntsize.toNat % 4) : Int) = ((2 * s.ntWidth : Nat) : Int) := by
    rw [s.two_mul_ntWidth]; norm_cast
  rw [State.dmaInc, transferIncrement, row]
  generalize 2 * s.ntWidth = n
  cases f.vert <;> cases f.rev <;> simp [BitVec.ofInt_neg]

/-- What the phases of a step do where the memories and the registers are those of `s`: the read phase leaves `d` in the DMA registers,
the write phase makes one store and leaves `e`. -/
structure StepPhases (rd wr : State → State) (d e : DmaRegs) (cell : Option (Region × Nat)) (v : Byte) (s : State) : Prop where
  read : ∀ w : State, w.mem = s.mem → w.dma = s.dma → w.sys = s.sys → rd w = w.setDma d
  write : ∀ w : State, w.mem = s.mem → w.sys = s.sys → w.video.vctl = s.video.vctl → wr (w.setDma d) = (w.store cell v).setDma e

/-- A step runs to its end, and leaves behind the store of its write phase and the counters moved on (R186). -/
theorem dmaStepWith_done {p : StepPlan} {f : DmaFlags} {i : Nat} {rd wr : State → State} {d e : DmaRegs}
    {cell : Option (Region × Nat)} {v : Byte} {s : State} (h : TimingInv s) (hp : StepPhases rd wr d e cell v s) :
    ∃ t, dmaStepWith Config.dmaInterlock p f i rd wr s = some t ∧
      StepDone p.touchesVram (e.counted p (BitVec.ofInt 16 (transferIncrement s.video.ntsize f))) cell v s t := by
  obtain ⟨k, hgrant, hnone, hbusy, hfree⟩ := arbitrate_grants h p.touchesVram i
  refine ⟨_, ?_, stepDone_of_eq h hnone hbusy hfree⟩
  have frame := engineFrame_iterate_cycle k s
  rw [dmaStepWith, hgrant, Option.map_some, Function.iterate_succ_apply',
    grantedStep_eq_store (hp.read _ frame.mem frame.dma frame.sys)
      (hp.write _ ((cycle_mem _).trans frame.mem) ((cycle_sys _).trans frame.sys) (by rw [cycle_vctl, frame.video]; rfl)),
    stepCounters_setDma, State.dmaInc_eq_transferIncrement, cycle_ntsize, State.store_video, cycle_ntsize, frame.video]
  rfl

end Sys2Proof.Machine
end

section
/-! The steps of a transfer, mode by mode (R190 to R197), and a masked transfer of zeros (R192). -/

namespace Sys2Proof.Machine

open Sys2Proof.Config (Region)

/-! ### The phases of the modes -/

/-- The read phase of a step whose source is the space `SRCV` selects. -/
theorem readSource_eq {f : DmaFlags} {s w : State} (hm : w.mem = s.mem) (hd : w.dma = s.dma) (hy : w.sys = s.sys) :
    readSource f w = w.setDma { s.dma with dfill := s.dmaRead f.srcv s.dma.dsrc } := by
  rw [readSource, State.latchFill, hd, State.dmaRead_congr hm hy]

/-- The read phase of a step whose source is system memory. -/
theorem readSystem_eq {s w : State} (hm : w.mem = s.mem) (hd : w.dma = s.dma) (hy : w.sys = s.sys) :
    readSystem w = w.setDma { s.dma with dfill := s.bankRead s.dma.dsrc } := by
  rw [readSystem, State.latchFill, hd, State.bankRead_congr hm hy]

/-- An idle read phase leaves the DMA registers as they are. -/
theorem readIdle_eq {s w : State} (hd : w.dma = s.dma) : readIdle w = w.setDma s.dma := by
  rw [← hd]; rfl

theorem stepPhases_copy (f : DmaFlags) (s : State) :
    StepPhases (readSource f) (writeFill f) { s.dma with dfill := s.dmaRead f.srcv s.dma.dsrc }
      { s.dma with dfill := s.dmaRead f.srcv s.dma.dsrc } (s.dmaCell f.dstv s.dma.ddst) (s.dmaRead f.srcv s.dma.dsrc) s where
  read _ hm hd hy := readSource_eq hm hd hy
  write _ _ hy _ := by rw [writeFill_setDma, State.dmaCell_congr hy]

theorem stepPhases_fill (f : DmaFlags) (s : State) :
    StepPhases readIdle (writeFill f) s.dma s.dma (s.dmaCell f.dstv s.dma.ddst) s.dma.dfill s where
  read _ _ hd _ := readIdle_eq hd
  write _ _ hy _ := by rw [writeFill_setDma, State.dmaCell_congr hy]

theorem stepPhases_masked (f : DmaFlags) (s : State) :
    StepPhases (readSource f) (writeMasked f) { s.dma with dfill := s.dmaRead f.srcv s.dma.dsrc }
      { s.dma with dfill := s.dmaRead f.srcv s.dma.dsrc }
      (if s.dmaRead f.srcv s.dma.dsrc = 0 then none else s.dmaCell f.dstv s.dma.ddst) (s.dmaRead f.srcv s.dma.dsrc) s where
  read _ hm hd hy := readSource_eq hm hd hy
  write _ _ hy _ := by rw [writeMasked_setDma, State.dmaCell_congr hy]

theorem stepPhases_apa (f : DmaFlags) {s : State} {ba : Addr} (hba : (pixelSlot s.bpp4 s.dma.ddst).byteAddr = ba) :
    StepPhases (readSource f) (writeApa f) { s.dma with dfill := s.dmaRead f.srcv s.dma.dsrc }
      { s.dma with dfill := s.dmaRead f.srcv s.dma.dsrc, dpage := s.dmaRead f.dstv ba } (s.dmaCell f.dstv ba)
      (mergePixel (pixelSlot s.bpp4 s.dma.ddst) (s.dmaRead f.dstv ba) (s.dmaRead f.srcv s.dma.dsrc)) s where
  read _ hm hd hy := readSource_eq hm hd hy
  write w hm hy hv := by
    have hb : w.bpp4 = s.bpp4 := by rw [State.bpp4, hv]; rfl
    rw [writeApa_setDma f w _ (by rw [hb]; exact hba) (State.dmaRead_congr hm hy f.dstv ba), State.dmaCell_congr hy, hb]

theorem stepPhases_pal (s : State) :
    StepPhases readSystem writePal { s.dma with dfill := s.bankRead s.dma.dsrc } { s.dma with dfill := s.bankRead s.dma.dsrc }
      (some (.pal, s.dma.ddst.toNat % 64)) (s.bankRead s.dma.dsrc) s where
  read _ hm hd hy := readSystem_eq hm hd hy
  write w _ _ _ := writePal_setDma w _

theorem stepPhases_spr (s : State) :
    StepPhases readSystem writeSpr { s.dma with dfill := s.bankRead s.dma.dsrc } { s.dma with dfill := s.bankRead s.dma.dsrc }
      (if s.dma.ddst.toNat < 160 then some (.spr, s.dma.ddst.toNat) else none) (s.bankRead s.dma.dsrc) s where
  read _ hm hd hy := readSystem_eq hm hd hy
  write w _ _ _ := writeSpr_setDma w _

theorem stepPhases_sprclr (s : State) :
    StepPhases readIdle writeSprclr s.dma s.dma (if s.dma.ddst.toNat < 160 then some (.spr, s.dma.ddst.toNat) else none) 0xFF s where
  read _ _ hd _ := readIdle_eq hd
  write w _ _ _ := writeSprclr_setDma w _

theorem stepPhases_altfill (f : DmaFlags) (i : Nat) (s : State) :
    StepPhases readIdle (writeAltfill f i) s.dma s.dma (s.dmaCell f.dstv s.dma.ddst)
      (if i % 2 = 0 then s.dma.dfill else s.dma.dpage) s where
  read _ _ hd _ := readIdle_eq hd
  write _ _ hy _ := by rw [writeAltfill_setDma, State.dmaCell_congr hy]

/-! ### One step of a mode, as an operation -/

section Exec
variable (f : DmaFlags) (i : Nat) (s : State)
theorem exec_dmaCopy : exec (.dmaCopy f i) s = ofStall (stepCopy Config.dmaInterlock f i s) := rfl
theorem exec_dmaFill : exec (.dmaFill f i) s = ofStall (stepFill Config.dmaInterlock f i s) := rfl
theorem exec_dmaMasked : exec (.dmaMasked f i) s = ofStall (stepMasked Config.dmaInterlock f i s) := rfl
theorem exec_dmaApa : exec (.dmaApa f i) s = ofStall (stepApa Config.dmaInterlock f i s) := rfl
theorem exec_dmaPal : exec (.dmaPal f i) s = ofStall (stepPal Config.dmaInterlock f i s) := rfl
theorem exec_dmaSpr : exec (.dmaSpr f i) s = ofStall (stepSpr Config.dmaInterlock f i s) := rfl
theorem exec_dmaSprclr : exec (.dmaSprclr f i) s = ofStall (stepSprclr Config.dmaInterlock f i s) := rfl
theorem exec_dmaAltfill : exec (.dmaAltfill f i) s = ofStall (stepAltfill Config.dmaInterlock f i s) := rfl
end Exec

/-- An operation that may stall answers the state in which its stall ends. -/
theorem ofStall_next {o : Option State} {P : State → Prop} (h : ∃ t, o = some t ∧ P t) : ∃ t, ofStall o = .next t ∧ P t := by
  obtain ⟨t, rfl, ht⟩ := h
  exact ⟨t, rfl, ht⟩

/-- Settles O40: each mode's phases are one store, before the ticks of the write cycle. -/
theorem copyAndFillSteps : Obligations.CopyAndFillSteps := by
  intro f i s h
  rw [exec_dmaCopy, exec_dmaFill, exec_dmaAltfill]
  exact ⟨ofStall_next (dmaStepWith_done h (stepPhases_copy f s)), ofStall_next (dmaStepWith_done h (stepPhases_fill f s)),
    ofStall_next (dmaStepWith_done h (stepPhases_altfill f i s))⟩

/-- Settles O43: the same for the modes that never wait, with the cell in the palette or in sprite memory. -/
theorem paletteAndSpriteSteps : Obligations.PaletteAndSpriteSteps := by
  intro f i s h
  rw [exec_dmaPal, exec_dmaSpr, exec_dmaSprclr]
  exact ⟨ofStall_next (dmaStepWith_done h (stepPhases_pal s)), ofStall_next (dmaStepWith_done h (stepPhases_spr s)),
    ofStall_next (dmaStepWith_done h (stepPhases_sprclr s))⟩

end Sys2Proof.Machine
end

section
/-! The masked mode (R192): one step, and a transfer of zeros. -/

namespace Sys2Proof.Machine

open Sys2Proof.Config (Region)

/-- One step of the masked mode. -/
theorem stepMasked_done {s : State} (h : TimingInv s) (f : DmaFlags) (i : Nat) :
    ∃ t, stepMasked Config.dmaInterlock f i s = some t ∧
      StepDone (f.srcv || f.dstv)
        { s.dma with
          dsrc := s.dma.dsrc + BitVec.ofInt 16 (transferIncrement s.video.ntsize f)
          ddst := s.dma.ddst + BitVec.ofInt 16 (transferIncrement s.video.ntsize f)
          drun := s.dma.drun - 1
          dfill := s.dmaRead f.srcv s.dma.dsrc }
        (if s.dmaRead f.srcv s.dma.dsrc = 0 then none else s.dmaCell f.dstv s.dma.ddst) (s.dmaRead f.srcv s.dma.dsrc) s t :=
  dmaStepWith_done h (stepPhases_masked f s)

/-- A control byte of the masked mode selects its step (R87, R181). -/
theorem dmaStep_masked {s : State} (hm : dmaModeOf s.dma.dctl = .masked) (i : Nat) :
    dmaStep Config.dmaInterlock i s = stepMasked Config.dmaInterlock (dmaFlagsOf s.dma.dctl) i s := by
  rw [dmaStep, hm]

/-! ### What a step keeps -/

section StepDone
variable {touches : Bool} {d : DmaRegs} {cell : Option (Region × Nat)} {v : Byte} {s t : State}

/-- A step keeps the invariants of the engine. -/
theorem StepDone.timingInv (hd : StepDone touches d cell v s t) (h : TimingInv s) : TimingInv t := by
  obtain ⟨k, -, -, -, -, -, rfl⟩ := hd.waits
  have stored : TimingInv ((cycle^[k + 1] s).store cell v) := by
    rw [State.store_eq_setMem]
    exact timingInv_of_eq (timingInv_iterate_cycle h (k + 1)) rfl rfl rfl (Nat.le_refl _)
  exact timingInv_of_eq (timingInv_cycle stored) rfl rfl rfl (Nat.le_refl _)

/-- A step without a store changes no memory. -/
theorem StepDone.mem_of_none (hd : StepDone touches d none v s t) : t.mem = s.mem := by
  obtain ⟨k, -, -, -, -, -, rfl⟩ := hd.waits
  rw [State.setDma_mem, cycle_mem, State.store_none, (engineFrame_iterate_cycle (k + 1) s).mem, addCycles_mem]

end StepDone

/-! ### A transfer of zeros -/

/-- What a write of `DRUN` in the state `s` has left of it after `n` steps of the masked mode, each of which read a zero. -/
structure ZerosRead (f : DmaFlags) (s : State) (n : Nat) (t : State) : Prop where
  timing : TimingInv t
  clock : t.caughtUp
  mem : t.mem = s.mem
  sys : t.sys = s.sys
  ntsize : t.video.ntsize = s.video.ntsize
  dctl : t.dma.dctl = s.dma.dctl
  dsrc : t.dma.dsrc = s.dma.dsrc + BitVec.ofInt 16 (n * transferIncrement s.video.ntsize f)
  ddst : t.dma.ddst = s.dma.ddst + BitVec.ofInt 16 (n * transferIncrement s.video.ntsize f)

/-- The ticks due and the run counter written, no step done (R160). -/
theorem ZerosRead.start {s : State} (h : TimingInv s) (f : DmaFlags) (v : Byte) :
    ZerosRead f s 0 ((advance s).setDma { s.dma with drun := v }) where
  timing := timingInv_of_eq (timingInv_advance h) rfl rfl rfl (Nat.le_refl _)
  clock := caughtUp_advance h.clock
  mem := advance_mem s
  sys := advance_sys s
  ntsize := advance_ntsize s
  dctl := rfl
  dsrc := by simp
  ddst := by simp

/-- One increment more (R182). -/
theorem add_ofInt_succ_mul (a : BitVec 16) (n : Nat) (inc : Int) :
    a + BitVec.ofInt 16 (n * inc) + BitVec.ofInt 16 inc = a + BitVec.ofInt 16 ((n + 1 : Nat) * inc) := by
  rw [BitVec.add_assoc, ← BitVec.ofInt_add, Nat.cast_succ, add_one_mul]

/-- The next step reads a zero, so it stores nothing and moves both counters. -/
theorem ZerosRead.succ {f : DmaFlags} {s u : State} {n : Nat} (h : ZerosRead f s n u) (hm : dmaModeOf s.dma.dctl = .masked)
    (hf : f = dmaFlagsOf s.dma.dctl)
    (hzero : s.dmaRead f.srcv (s.dma.dsrc + BitVec.ofInt 16 (n * transferIncrement s.video.ntsize f)) = 0) (i : Nat) :
    ∃ t, dmaStep Config.dmaInterlock i u = some t ∧ ZerosRead f s (n + 1) t := by
  obtain ⟨t, ht, hd⟩ := stepMasked_done h.timing f i
  have read : u.dmaRead f.srcv u.dma.dsrc = 0 := by rw [State.dmaRead_congr h.mem h.sys, h.dsrc, hzero]
  rw [read, if_pos rfl] at hd
  refine ⟨t, ?_, hd.timingInv h.timing, hd.clock, hd.mem_of_none.trans h.mem, hd.sys.trans h.sys, ?_, ?_, ?_, ?_⟩
  · rw [dmaStep_masked (by rw [h.dctl]; exact hm), h.dctl, ← hf, ht]
  · rw [hd.video]; exact h.ntsize
  · rw [hd.dma]; exact h.dctl
  · rw [hd.dma, h.ntsize, ← add_ofInt_succ_mul, ← h.dsrc]
  · rw [hd.dma, h.ntsize, ← add_ofInt_succ_mul, ← h.ddst]

/-- A transfer in the masked mode of `len` zeros: the last `n` steps, after the first `m`. -/
theorem dmaLoop_masked_zeros {f : DmaFlags} {s : State} {len : Nat} (hm : dmaModeOf s.dma.dctl = .masked)
    (hf : f = dmaFlagsOf s.dma.dctl)
    (hzero : ∀ j < len, s.dmaRead f.srcv (s.dma.dsrc + BitVec.ofInt 16 (j * transferIncrement s.video.ntsize f)) = 0)
    {n m : Nat} (hlen : m + n = len) {u : State} (h : ZerosRead f s m u) :
    ∃ t, dmaLoop Config.dmaInterlock n m u = some t ∧ ZerosRead f s len t := by
  induction n generalizing m u with
  | zero => exact ⟨u, rfl, hlen ▸ h⟩
  | succ n ih =>
    obtain ⟨w, hw, hnext⟩ := h.succ hm hf (hzero m (by omega)) m
    obtain ⟨t, ht, hdone⟩ := ih (by omega) hnext
    exact ⟨t, by rw [dmaLoop_succ, hw]; exact ht, hdone⟩

theorem stepCount_eq_transferSteps (v : Byte) : stepCount v = transferSteps v := by
  have zero : v.toNat = 0 ↔ v = 0 := by rw [BitVec.toNat_eq]; rfl
  simp only [stepCount, transferSteps, zero]

/-- A write of `DRUN` answers the end of its transfer, if that leaves the engine caught up (R160, R221). -/
theorem exec_wrDrun {v : Byte} {s t : State}
    (h : dmaLoop Config.dmaInterlock (transferSteps v) 0 ((advance s).setDma { s.dma with drun := v }) = some t) (hc : t.caughtUp) :
    exec (.wrDrun v) s = .next t := by
  rw [← stepCount_eq_transferSteps, ← advance_dma s] at h
  show execWrDrun v s = _
  exact ioWriteStall_eq h (Nat.le_of_eq hc.symm)

/-- Settles O41: one step, and by induction a transfer, in which every step reads a zero. -/
theorem maskedTransfers : Obligations.MaskedTransfers := by
  refine ⟨fun f i s h => ?_, fun v s h hm hzero => ?_⟩
  · rw [exec_dmaMasked]
    exact ofStall_next (stepMasked_done h f i)
  · obtain ⟨t, ht, hdone⟩ := dmaLoop_masked_zeros hm rfl hzero (Nat.zero_add _) (.start h _ v)
    exact ⟨t, exec_wrDrun ht hdone.clock, hdone.mem, hdone.ddst, hdone.dsrc⟩

end Sys2Proof.Machine
end

section
/-! The direct-pixel mode (R193): one pixel of a byte replaced, in numbers. -/

namespace Sys2Proof.Machine

/-! ### A field of a byte -/

/-- The low bits of a byte, moved up to a field. -/
theorem and_low_shiftLeft {low : Byte} {bits : Nat} (hlow : low.toNat = 2 ^ bits - 1) (sh : Nat) (x : Byte) :
    (x &&& low) <<< sh = BitVec.ofNat 8 (x.toNat % 2 ^ bits * 2 ^ sh) := by
  apply BitVec.eq_of_toNat_eq
  rw [BitVec.toNat_shiftLeft, BitVec.toNat_and, hlow, Nat.and_two_pow_sub_one_eq_mod, Nat.shiftLeft_eq, BitVec.toNat_ofNat]

/-- The bits of a byte in a field, left in their place. -/
theorem and_shiftLeft_low {low : Byte} {bits : Nat} (hlow : low.toNat = 2 ^ bits - 1) (sh : Nat) (x : Byte) :
    x &&& low <<< sh = BitVec.ofNat 8 (x.toNat / 2 ^ sh % 2 ^ bits * 2 ^ sh) := by
  have moved : x &&& low <<< sh = ((x >>> sh) &&& low) <<< sh := by
    ext i hi
    by_cases h : i < sh
    · simp [h]
    · simp [h, Nat.add_sub_of_le (Nat.le_of_not_lt h), BitVec.getLsbD_eq_getElem hi]
  rw [moved, and_low_shiftLeft hlow, BitVec.toNat_ushiftRight, Nat.shiftRight_eq_div_pow]

/-- The bits of a byte outside a mask are the byte less its bits under the mask. -/
theorem and_not_eq_sub (x m : Byte) : x &&& ~~~m = x - (x &&& m) := by
  have disjoint : (x &&& ~~~m) &&& (x &&& m) = 0#8 := by
    ext i hi; cases hm : m[i] <;> simp [hm]
  have parts : (x &&& ~~~m) + (x &&& m) = x := by
    rw [BitVec.add_eq_or_of_and_eq_zero _ _ disjoint]
    ext i hi; cases hm : m[i] <;> simp [hm]
  exact BitVec.eq_sub_iff_add_eq.mpr parts

/-- A field of a byte replaced by the low bits of another. -/
theorem replace_field {low : Byte} {bits : Nat} (hlow : low.toNat = 2 ^ bits - 1) (sh : Nat) (old src : Byte) :
    (old &&& ~~~(low <<< sh)) ||| ((src &&& low) <<< sh) =
      BitVec.ofNat 8 (old.toNat - old.toNat / 2 ^ sh % 2 ^ bits * 2 ^ sh + src.toNat % 2 ^ bits * 2 ^ sh) := by
  have field_le : old.toNat / 2 ^ sh % 2 ^ bits * 2 ^ sh ≤ old.toNat :=
    (Nat.mul_le_mul_right _ (Nat.mod_le _ _)).trans (Nat.div_mul_le_self _ _)
  have disjoint : (old &&& ~~~(low <<< sh)) &&& ((src &&& low) <<< sh) = 0#8 := by
    rw [BitVec.shiftLeft_and_distrib]
    ext i hi; cases hm : (low <<< sh)[i] <;> simp [hm]
  rw [← BitVec.add_eq_or_of_and_eq_zero _ _ disjoint, and_not_eq_sub, and_shiftLeft_low hlow, and_low_shiftLeft hlow, BitVec.ofNat_add,
    ← BitVec.ofNat_sub_ofNat_of_le _ _ (Nat.lt_of_le_of_lt field_le old.isLt) field_le, BitVec.ofNat_toNat, BitVec.setWidth_eq]

/-! ### The slot of a pixel -/

theorem ushiftRight_eq_ofNat_div (d : BitVec 16) (n : Nat) : d >>> n = BitVec.ofNat 16 (d.toNat / 2 ^ n) := by
  rw [← Nat.shiftRight_eq_div_pow, ← BitVec.toNat_ushiftRight, BitVec.ofNat_toNat, BitVec.setWidth_eq]

/-- The byte that holds a pixel: two pixels to a byte, or four (R193). -/
theorem byteAddr_pixelSlot (bpp4 : Bool) (d : BitVec 16) :
    (pixelSlot bpp4 d).byteAddr = BitVec.ofNat 16 (if bpp4 then d.toNat / 2 else d.toNat / 4) := by
  cases bpp4 with
  | false => exact ushiftRight_eq_ofNat_div d 2
  | true => exact ushiftRight_eq_ofNat_div d 1

/-- The merge of a pixel in numbers (R193). -/
theorem mergePixel_pixelSlot (bpp4 : Bool) (d : BitVec 16) (old src : Byte) {bits sh : Nat} (hbits : bits = if bpp4 then 4 else 2)
    (hsh : sh = if bpp4 then (1 - d.toNat % 2) * 4 else (3 - d.toNat % 4) * 2) :
    mergePixel (pixelSlot bpp4 d) old src =
      BitVec.ofNat 8 (old.toNat - old.toNat / 2 ^ sh % 2 ^ bits * 2 ^ sh + src.toNat % 2 ^ bits * 2 ^ sh) := by
  subst hbits hsh
  cases bpp4 with
  | false => exact replace_field (low := 0x03) rfl _ old src
  | true => exact replace_field (low := 0x0F) rfl _ old src

/-- Settles O42: the destination byte with the field of its pixel replaced. -/
theorem directPixelSteps : Obligations.DirectPixelSteps := by
  intro f i s bits sh ba h hbits hsh hba
  have haddr : (pixelSlot s.bpp4 s.dma.ddst).byteAddr = ba := (byteAddr_pixelSlot ..).trans hba.symm
  rw [exec_dmaApa, ← mergePixel_pixelSlot s.bpp4 s.dma.ddst _ _ hbits hsh]
  exact ofStall_next (dmaStepWith_done h (stepPhases_apa f haddr))

end Sys2Proof.Machine
end

section
/-! One tick as equations (R222 to R242): the timing registers, the raster, the status flag, the request and the frames after it, the
end of a line as an operation, and the tick that opens the early window. -/

namespace Sys2Proof.Machine

/-! ### The name table in numbers (R84) -/

theorem State.ntWidth_eq (s : State) : s.ntWidth = 32 * 2 ^ (s.video.ntsize.toNat % 4) := by
  rw [State.ntWidth, Nat.shiftLeft_eq, BitVec.extractLsb'_toNat, Nat.shiftRight_zero]

theorem State.ntHeight_eq (s : State) : s.ntHeight = 32 * 2 ^ (s.video.ntsize.toNat / 4 % 4) := by
  rw [State.ntHeight, Nat.shiftLeft_eq, BitVec.extractLsb'_toNat, Nat.shiftRight_eq_div_pow]

theorem bitVec3_succ_eq_zero_iff (x : BitVec 3) : x + 1#3 = 0#3 ↔ x = 7#3 := by decide +revert

/-! ### A tick -/

section Tick
variable (s : State)

/-- Any observation of a tick: only the tick of index 431 ends its line (R222, R234). -/
theorem apply_tick {β : Type} (g : State → β) :
    g (tick s) = if s.tim.hcount = 431 then g (lineEnd (hAdvance (pixelStage s))) else g (hAdvance (pixelStage s)) := by
  split
  next h => rw [tick_of_eq (congrArg (· + 1) h)]
  next h => rw [tick_of_lt fun e => h (Nat.succ.inj e)]

/-- The timing registers after a tick (R224 to R231, R234, R238, R242). -/
theorem tick_tim : (tick s).tim =
    { hcount := if s.tim.hcount = 431 then 0 else s.tim.hcount + 1
      htile :=
        if s.tim.hcount = 415 then BitVec.ofNat 8 (s.video.scrh.toNat % s.ntWidth)
        else if s.tim.hsub = 7 then BitVec.ofNat 8 ((s.tim.htile.toNat + 1) % s.ntWidth) else s.tim.htile
      hsub := if s.tim.hcount = 431 then 0 else s.tim.hsub + 1
      vcount := if s.tim.hcount = 431 then if s.tim.vcount = 261 then 0 else s.tim.vcount + 1 else s.tim.vcount
      vtile :=
        if s.tim.hcount = 415 ∧ s.tim.vsub = 7 then BitVec.ofNat 8 ((s.tim.vtile.toNat + 1) % s.ntHeight)
        else if s.tim.hcount = 431 ∧ s.tim.vcount = 261 then BitVec.ofNat 8 (s.video.scrv.toNat % s.ntHeight) else s.tim.vtile
      vsub :=
        if s.tim.hcount = 415 then s.tim.vsub + 1
        else if s.tim.hcount = 431 ∧ s.tim.vcount = 261 then s.video.scrvf else s.tim.vsub
      hborder := if s.tim.hcount = 431 then false else if s.tim.hcount = 319 then true else s.tim.hborder
      hblank := if s.tim.hcount = 431 then false else if s.tim.hcount = 319 then true else s.tim.hblank
      vborder :=
        if s.tim.hcount = 431 ∧ s.tim.vcount = 239 then true else if s.tim.hcount = 431 ∧ s.tim.vcount = 261 then false
        else s.tim.vborder
      vblank :=
        if s.tim.hcount = 431 ∧ s.tim.vcount = 239 then true else if s.tim.hcount = 431 ∧ s.tim.vcount = 261 then false
        else s.tim.vblank
      hbusy := if s.tim.hcount = 319 then false else if s.tim.hcount = 415 then true else s.tim.hbusy
      vbusy :=
        if s.tim.hcount = 431 ∧ s.tim.vcount = 239 then false else if s.tim.hcount = 431 ∧ s.tim.vcount = 261 then true
        else s.tim.vbusy } := by
  rw [apply_tick s State.tim]
  by_cases h : s.tim.hcount = 431
  · simp [h, lineEnd_tim, hAdvance_tim, State.ntWidth, State.ntHeight, bitVec3_succ_eq_zero_iff, Config.vVisEnd, Config.vTotal]
  · simp [h, hAdvance_tim, State.ntWidth, State.ntHeight, bitVec3_succ_eq_zero_iff, Config.hVisEnd, Config.hEarly]

/-- The framebuffer and its cursors after a tick (R231, R234, R242). -/
theorem tick_raster : (tick s).raster =
    { fb := (pixelStage s).raster.fb
      row := if s.tim.hcount = 431 then if s.tim.vcount = 261 then 24 else min (s.raster.row + 1) 287 else s.raster.row
      col :=
        if s.tim.hcount = 415 ∨ s.tim.hcount = 431 ∧ s.tim.vcount = 261 then 32 else (pixelStage s).raster.col } := by
  rw [apply_tick s State.raster, ← pixelStage_row s]
  by_cases h : s.tim.hcount = 431
  · simp [h, lineEnd_raster, hAdvance_raster, hAdvance_tim, Config.vTotal, Config.fbY0, Config.fbX0, Config.fbH]
  · by_cases k : s.tim.hcount = 415 <;> simp [-pixelStage_row, h, k, hAdvance_raster, Config.hEarly, Config.fbX0]

/-- The video registers after a tick: the flag is set at the end of line 242 (R240). -/
theorem tick_video : (tick s).video =
    { s.video with vsta := if s.tim.hcount = 431 ∧ s.tim.vcount = 242 then s.video.vsta ||| 1 else s.video.vsta } := by
  rw [apply_tick s State.video]
  by_cases h : s.tim.hcount = 431 <;> simp [h, lineEnd_video, hAdvance_tim, Config.vSyncStart]

/-- The request after a tick: raised with the flag if it is enabled (R240, R305). -/
theorem tick_irq :
    (tick s).irq = (s.irq || (decide (s.tim.hcount = 431 ∧ s.tim.vcount = 242) && s.video.vena.getLsbD 0)) := by
  rw [apply_tick s State.irq]
  by_cases h : s.tim.hcount = 431 <;> simp [h, lineEnd_irq, hAdvance_tim, Config.vSyncStart, Bool.or_comm]

/-- The frames after a tick: one more at the end of line 239, the framebuffer as the tick leaves it (R238, R286). -/
theorem tick_framesOut : (tick s).framesOut =
    if s.tim.hcount = 431 ∧ s.tim.vcount = 239 then s.framesOut ++ [(tick s).raster.fb] else s.framesOut := by
  rw [apply_tick s State.framesOut, apply_tick s fun t => t.raster.fb]
  by_cases h : s.tim.hcount = 431 <;> simp [h, lineEnd_framesOut, lineEnd_raster, hAdvance_tim, Config.vVisEnd]

end Tick

/-- Settles O54: the early window opens inside its line, so step 4 alone moves the registers. -/
theorem earlyWindow : Obligations.EarlyWindow := by
  intro s h
  have hpipe : (tick s).pipe = { name := 0, attrF := 0, attrA := 0, gfx0 := 0, gfx1 := 0, sr := 0, pix := 0 } := by
    rw [tick_of_lt (by simp [h]), hAdvance_pipe, if_pos (by simp [h])]
  rw [← s.ntWidth_eq, ← s.ntHeight_eq, (engineFrame_tick s).mem, hpipe, tick_tim, tick_raster]
  simp [h]

/-! ### The end of a line, as an operation -/

theorem exec_htHTotal (s : State) : exec .htHTotal s = .next (lineEnd s) := rfl

end Sys2Proof.Machine

namespace Sys2Proof

open Sys2Proof.Machine

/-- Settles O56: the thresholds of a line end, and of every tick those it comes to. -/
theorem lineEnd : Obligations.LineEnd := by
  refine ⟨fun s => ⟨_, exec_htHTotal s, ?_⟩, fun s => ?_⟩
  · obtain ⟨hcycles, hmem, hdma, hsys, hreads, htrace, -⟩ := engineFrame_lineEnd s
    rw [← s.ntHeight_eq, lineEnd_tim]
    refine ⟨rfl, rfl, rfl, rfl, rfl, rfl, rfl, rfl, rfl, rfl, rfl, rfl, lineEnd_raster s, lineEnd_framesOut s, lineEnd_video s, ?_,
      hcycles, lineEnd_pixelClock s, hmem, hdma, hsys, lineEnd_pipe s, hreads, htrace⟩
    simp [lineEnd_irq, Config.vSyncStart, Bool.or_comm]
  · rw [tick_tim]
    exact ⟨rfl, rfl, rfl, rfl, rfl, rfl, rfl, rfl, congrArg Raster.row (tick_raster s), tick_video s, tick_irq s, tick_framesOut s⟩

end Sys2Proof
end

section
/-! The clocks (R4, R220, R221) and a frame of cycles (R246, R247): many ticks, as passages of a line end. -/

namespace Sys2Proof.Machine

/-! ### The events that count and catch up -/

theorem tickGoal_eq (c : Nat) : tickGoal c = 9 * c / 2 := by rw [Nat.mul_comm 9 c]; rfl

theorem exec_cycN (n : Nat) (s : State) : exec (.cycN n) s = .next { s with cpuCycles := s.cpuCycles + n } := rfl

theorem exec_sync (s : State) : exec .sync s = .next (advance s) := rfl

/-- A second `CatchUp` runs no tick (R221). -/
theorem advance_advance (s : State) : advance (advance s) = advance s := advance_of_caughtUp (tickGoal_le_advance s)

/-- Settles O18: `CatchUp` is the ticks due, whose frame is the engine's. -/
theorem clockEvents : Obligations.ClockEvents := by
  refine ⟨fun c => ?_, exec_cycN, fun s => ⟨advance s, exec_sync s, ?_⟩⟩
  · split_ifs <;> omega
  · obtain ⟨hcycles, hmem, hdma, hsys, hreads, htrace, hvideo, hvsta, hirq, -, hframes⟩ := engineFrame_advance s
    have twice : exec .sync (advance s) = .next (advance s) := by rw [exec_sync, advance_advance]
    rw [← tickGoal_eq]
    exact ⟨rfl, advance_pixelClock s, advance_of_caughtUp, twice, hcycles, hmem, hdma, hsys, hreads, htrace, hvideo, hvsta, hirq, hframes⟩

/-! ### Many ticks -/

/-- `n` ticks move the engine `n` places on in its frame. -/
theorem ticks_position {s : State} (h : EngineInv s) (n : Nat) : (ticks n s).position = (s.position + n) % frameTicks := by
  induction n with
  | zero => rw [Nat.add_zero, Nat.mod_eq_of_lt h.position_lt]; rfl
  | succ n ih => rw [ticks_succ, countedTick_position, tick_position (engineInv_ticks h n), ih, Nat.mod_add_mod, Nat.add_assoc]

@[simp] theorem ticks_vena (n : Nat) (s : State) : (ticks n s).video.vena = s.video.vena := by rw [(engineFrame_ticks n s).video]

/-- How often the `n` ticks from position `p` of a frame come to the start of line `l`. -/
def arrivals (l p n : Nat) : Nat :=
  (p + n + (frameTicks - 432 * l)) / frameTicks - (p + (frameTicks - 432 * l)) / frameTicks

@[simp] theorem arrivals_zero (l p : Nat) : arrivals l p 0 = 0 := Nat.sub_self _

/-- The last of `n + 1` ticks comes to line `l` if it is the last tick of the line before. -/
theorem arrivals_succ {l : Nat} (hl : l < 262) (p n : Nat) :
    arrivals (l + 1) p (n + 1) = arrivals (l + 1) p n + if (p + n) % frameTicks = 432 * l + 431 then 1 else 0 := by
  split_ifs with h
  all_goals
    simp only [arrivals, frameTicks, Config.hTotal, Config.vTotal] at *
    omega

/-- A frame of ticks comes to each line once. -/
theorem arrivals_frameTicks (l p : Nat) : arrivals l p frameTicks = 1 := by
  simp only [arrivals, frameTicks, Config.hTotal, Config.vTotal]
  omega

/-- The last tick of a line, in terms of the position. -/
theorem EngineInv.line_ends_iff {s : State} (h : EngineInv s) (l : Nat) :
    s.tim.hcount = 431 ∧ s.tim.vcount = l ↔ s.position = 432 * l + 431 := by
  have h1 := h.hcount_lt
  simp only [State.position, Config.hTotal] at *
  omega

/-- Each arrival at line 240 hands out a frame (R238, R286). -/
theorem length_framesOut_ticks {s : State} (h : EngineInv s) (n : Nat) :
    (ticks n s).framesOut.length = s.framesOut.length + arrivals 240 s.position n := by
  induction n with
  | zero => rw [arrivals_zero]; rfl
  | succ n ih =>
    rw [ticks_succ, countedTick_framesOut, tick_framesOut, arrivals_succ (by decide)]
    simp only [(engineInv_ticks h n).line_ends_iff, ticks_position h]
    split_ifs <;> simp [ih, Nat.add_assoc]

/-- The flag is set if it was, or if line 243 has been come to (R240). -/
theorem flag_ticks {s : State} (h : EngineInv s) (n : Nat) :
    (ticks n s).video.vsta.getLsbD 0 = true ↔ s.video.vsta.getLsbD 0 = true ∨ 0 < arrivals 243 s.position n := by
  induction n with
  | zero => simp [ticks]
  | succ n ih =>
    rw [ticks_succ, countedTick_video, tick_video, arrivals_succ (by decide)]
    simp only [(engineInv_ticks h n).line_ends_iff, ticks_position h]
    split_ifs
    · simp
    · exact ih

/-- The request stands if it did, or if line 243 has been come to with the request enabled (R240, R305). -/
theorem irq_ticks {s : State} (h : EngineInv s) (n : Nat) :
    (ticks n s).irq = true ↔ s.irq = true ∨ s.video.vena.getLsbD 0 = true ∧ 0 < arrivals 243 s.position n := by
  induction n with
  | zero => simp [ticks]
  | succ n ih =>
    rw [ticks_succ, countedTick_irq, tick_irq, arrivals_succ (by decide), ticks_vena, Bool.or_eq_true, ih, Bool.and_eq_true,
      decide_eq_true_iff, (engineInv_ticks h n).line_ends_iff, ticks_position h]
    split_ifs with hend
    · simp only [hend, true_and, Nat.succ_pos, and_true]; tauto
    · simp only [hend, false_and, or_false, Nat.add_zero]

/-! ### A frame of cycles -/

/-- A frame's worth of cycles is a frame of ticks (R356). -/
theorem advance_frame {s : State} (h : s.caughtUp) : advance (s.addCycles 25152) = ticks frameTicks (s.addCycles 25152) := by
  have due : tickGoal (s.cpuCycles + 25152) - s.pixelClock = frameTicks := by
    rw [h]
    simp only [tickGoal, frameTicks, Config.clkNum, Config.clkDen, Config.hTotal, Config.vTotal]
    omega
  rw [advance, addCycles_cpuCycles, addCycles_pixelClock, due]

theorem timingInv_reset : TimingInv State.reset where
  hcount_lt := by decide
  vcount_lt := by decide
  hsub := rfl
  hborder := by decide
  hblank := rfl
  vborder := by decide
  vblank := rfl
  hbusy := by decide
  vbusy := by decide
  row := rfl
  col := rfl
  clock := Nat.zero_le _
  count := rfl

theorem caughtUp_reset : State.reset.caughtUp := rfl

/-- What a frame of cycles leaves in the counters, the frames, the flag and the request (R247). -/
structure FramePassed (s t : State) : Prop where
  hcount : t.tim.hcount = s.tim.hcount
  vcount : t.tim.vcount = s.tim.vcount
  frames : ∃ f, t.framesOut = s.framesOut ++ [f]
  flag : t.video.vsta.getLsbD 0 = true
  request : s.video.vena.getLsbD 0 = true → t.irq = true

theorem framePassed_ticks {s : State} (h : EngineInv s) : FramePassed s (ticks frameTicks s) := by
  have hpos : (ticks frameTicks s).position = s.position := by
    rw [ticks_position h, Nat.add_mod_right, Nat.mod_eq_of_lt h.position_lt]
  obtain ⟨hv, hh⟩ := (engineInv_ticks h frameTicks).counts
  obtain ⟨l, hl⟩ := (engineFrame_ticks frameTicks s).framesOut
  have one : l.length = 1 := by
    have := length_framesOut_ticks h frameTicks
    rw [hl, List.length_append, arrivals_frameTicks] at this
    omega
  obtain ⟨f, rfl⟩ := List.length_eq_one_iff.mp one
  exact
    { hcount := by rw [hh, hpos, ← h.counts.2]
      vcount := by rw [hv, hpos, ← h.counts.1]
      frames := ⟨f, hl⟩
      flag := (flag_ticks h _).mpr (.inr (by rw [arrivals_frameTicks]; exact Nat.one_pos))
      request := fun he => (irq_ticks h _).mpr (.inr ⟨he, by rw [arrivals_frameTicks]; exact Nat.one_pos⟩) }

theorem framePassed_advance {s : State} (h : TimingInv s) (hc : s.caughtUp) : FramePassed s (advance (s.addCycles 25152)) := by
  have passed := framePassed_ticks (timingInv_addCycles h 25152).toEngineInv
  rw [← advance_frame hc] at passed
  exact { passed with }

/-- Settles O22: a frame of ticks comes back to its place, passing the ends of lines 239 and 242 once. -/
theorem oneFrameOfCycles : Obligations.OneFrameOfCycles := by
  refine ⟨fun s h hc => ?_, ?_⟩
  · obtain ⟨hcount, vcount, frames, flag, request⟩ := framePassed_advance h hc
    exact ⟨hcount, vcount, frames, flag, request⟩
  · obtain ⟨hcount, vcount, ⟨f, hf⟩, -, -⟩ := framePassed_advance timingInv_reset caughtUp_reset
    exact ⟨vcount, hcount, congrArg List.length hf⟩

end Sys2Proof.Machine
end

section
/-! The fetch scheduler (R260 to R267): the two addresses in numbers, and each slot as a read of VRAM. -/

namespace Sys2Proof.Machine

section Addresses
variable (s : State)

/-- The scheduler owns the VRAM port while both windows are open (R36, R260). -/
theorem State.vramBusy_iff : s.vramBusy = true ↔ s.tim.hbusy = true ∧ s.tim.vbusy = true := by
  rw [State.vramBusy, Bool.and_eq_true]

theorem State.vramRead_of_lt {a : Nat} (h : a < 16384) : s.vramRead a = s.peek .vram a := by
  rw [State.vramRead, Nat.mod_eq_of_lt h]

/-! ### The name-table address (R261) -/

theorem State.ntAddr_eq : s.ntAddr =
    (s.video.ntbase.toNat * 64 + 2 * (s.tim.vtile.toNat * (32 * 2 ^ (s.video.ntsize.toNat % 4)) + s.tim.htile.toNat)) % 16384 := by
  rw [State.ntAddr, Nat.shiftLeft_eq, s.ntWidth_eq]

theorem State.ntAddr_lt : s.ntAddr < 16384 := Nat.mod_lt _ (by decide)

/-! ### The graphics address (R264) -/

/-- The high bit is attribute bit 3, or 0 in 16-colour attribute mode. -/
theorem State.tileHi_toNat : s.tileHi.toNat = if s.video.vctl.getLsbD 2 then 0 else s.pipe.attrF.toNat / 8 % 2 := by
  rw [State.tileHi, State.attr16, apply_ite BitVec.toNat, BitVec.extractLsb'_toNat, Nat.shiftRight_eq_div_pow]
  rfl

/-- The fields of the address, each at its weight. -/
theorem State.gfxAddr_eq (k : BitVec 1) :
    s.gfxAddr k = s.tileHi.toNat * 4096 + s.pipe.name.toNat * 16 + s.tim.vsub.toNat * 2 + k.toNat := by
  have hname := s.pipe.name.isLt
  have hsub := s.tim.vsub.isLt
  have hk := k.isLt
  simp only [State.gfxAddr, BitVec.toNat_append]
  rw [← Nat.shiftLeft_add_eq_or_of_lt hk, ← Nat.shiftLeft_add_eq_or_of_lt hsub, ← Nat.shiftLeft_add_eq_or_of_lt hname]
  simp only [Nat.shiftLeft_eq]
  omega

theorem State.gfxAddr_lt (k : BitVec 1) : s.gfxAddr k < 16384 :=
  (s.tileHi ++ s.pipe.name ++ s.tim.vsub ++ k).isLt.trans (by decide)

end Addresses

/-! ### The slots (R262, R263, R265, R266) -/

section Slots
variable (s : State)

theorem exec_fetchName : exec .fetchName s =
    .next (if s.vramBusy = true then s.setPipe { s.pipe with name := s.vramRead s.ntAddr } else s) := rfl

theorem exec_fetchAttr : exec .fetchAttr s =
    .next (if s.vramBusy = true then s.setPipe { s.pipe with attrF := s.vramRead (s.ntAddr + 1) } else s) := rfl

theorem exec_fetchGfx0 : exec .fetchGfx0 s =
    .next (if s.vramBusy = true then s.setPipe { s.pipe with gfx0 := s.vramRead (s.gfxAddr 0) } else s) := rfl

theorem exec_fetchGfx1 : exec .fetchGfx1 s =
    .next (if s.vramBusy = true then s.setPipe { s.pipe with gfx1 := s.vramRead (s.gfxAddr 1) } else s) := rfl

theorem exec_fetchIdle (p : BitVec 3) : exec (.fetchIdle p) s = .next s := rfl

end Slots

end Sys2Proof.Machine

namespace Sys2Proof

open Sys2Proof.Machine

/-- Settles O49: each even slot is one read, at an address inside VRAM, made while the port is the scheduler's. -/
theorem fetchSlots : Obligations.FetchSlots := by
  intro s nt gfx hnt hgfx
  have hnt : s.ntAddr = nt := s.ntAddr_eq.trans hnt.symm
  have hgfx (k : BitVec 1) : s.gfxAddr k = gfx + k.toNat := by rw [s.gfxAddr_eq, s.tileHi_toNat, hgfx]
  rw [exec_fetchName, exec_fetchAttr, exec_fetchGfx0, exec_fetchGfx1, ← s.vramBusy_iff]
  refine ⟨fun busy => ?_, fun free => ?_, exec_fetchIdle s⟩
  · simp only [if_pos busy]
    rw [s.vramRead_of_lt s.ntAddr_lt, s.vramRead_of_lt (s.gfxAddr_lt 0), s.vramRead_of_lt (s.gfxAddr_lt 1), hgfx, hgfx, hnt]
    exact ⟨rfl, rfl, rfl, rfl⟩
  · simp only [if_neg free, and_self]

end Sys2Proof
end

section
/-! The control byte (R82, R289): a tick reads `ATTR16` and `BPP4` of it and no other bit. -/

namespace Sys2Proof.Machine

/-- The control byte `w` with its unread bits taken from `v`: bits 2 and 6, `ATTR16` and `BPP4`, stay (R289). -/
def withUnreadBits (v w : Byte) : Byte := (v &&& ~~~0x44) ||| (w &&& 0x44)

theorem getLsbD_withUnreadBits (v w : Byte) {i : Nat} (hi : i < 8) :
    (withUnreadBits v w).getLsbD i = if i = 2 ∨ i = 6 then w.getLsbD i else v.getLsbD i := by
  have mask : (0x44 : Byte).getLsbD i = decide (i = 2 ∨ i = 6) := by revert i; decide
  rw [withUnreadBits, BitVec.getLsbD_or, BitVec.getLsbD_and, BitVec.getLsbD_and, BitVec.getLsbD_not, mask]
  split_ifs with h <;> simp [h, hi]

/-- Two control bytes that agree in the bits read differ in unread bits only. -/
theorem withUnreadBits_eq_left {v w : Byte} (hattr16 : v.getLsbD 2 = w.getLsbD 2) (hbpp4 : v.getLsbD 6 = w.getLsbD 6) :
    withUnreadBits v w = v := by
  refine BitVec.eq_of_getLsbD_eq fun i hi => ?_
  rw [getLsbD_withUnreadBits v w hi]
  split_ifs with h
  · rcases h with rfl | rfl
    · exact hattr16.symm
    · exact hbpp4.symm
  · rfl

/-- The unread bits of the control byte written. The bits read stay, so that no tick sees the update, whatever the state. -/
def State.setUnreadBits (s : State) (v : Byte) : State := s.setVideo { s.video with vctl := withUnreadBits v s.video.vctl }

theorem raiseVsync_setUnreadBits (v : Byte) (s : State) : raiseVsync (s.setUnreadBits v) = (raiseVsync s).setUnreadBits v := by
  unfold raiseVsync
  dsimp only
  rw [apply_ite (fun u : State => u.setUnreadBits v)]
  rfl

theorem unread_setUnreadBits (v : Byte) : Unread (fun s => s.setUnreadBits v) := by
  constructor
  case attr16 => exact fun s => getLsbD_withUnreadBits v s.video.vctl (i := 2) (by decide)
  case bpp4 => exact fun s => getLsbD_withUnreadBits v s.video.vctl (i := 6) (by decide)
  case raiseVsync => exact fun s => (raiseVsync_setUnreadBits v s).symm
  all_goals intros; rfl

@[simp] theorem ticks_vctl (n : Nat) (s : State) : (ticks n s).video.vctl = s.video.vctl := by rw [(engineFrame_ticks n s).video]

/-- Settles O57: writing the unread bits may be exchanged with ticks, and no tick writes the control byte. -/
theorem unreadControlBits : Obligations.UnreadControlBits := by
  intro s v n hattr16 hbpp4
  have exchanged : ticks n (s.setUnreadBits v) = (ticks n s).setUnreadBits v :=
    (unread_setUnreadBits v).ticks (fun _ _ _ => rfl) (fun _ => rfl) (fun _ => rfl) n s
  rwa [State.setUnreadBits, State.setUnreadBits, ticks_vctl, withUnreadBits_eq_left hattr16 hbpp4] at exchanged

end Sys2Proof.Machine
end

section
/-! The shift register (R275 to R277): the shift and the two loads in numbers, and the latches that a tick leaves. -/

namespace Sys2Proof.Machine

theorem subTilePhase_cases (p : BitVec 3) : p = 0 ∨ p = 1 ∨ p = 2 ∨ p = 3 ∨ p = 4 ∨ p = 5 ∨ p = 6 ∨ p = 7 := by decide +revert

/-! ### The slot of a phase (R260) -/

theorem decodeFetch_eq (p : BitVec 3) : decodeFetch p =
    if p = 0 then .fetchName else if p = 2 then .fetchAttr else if p = 4 then .fetchGfx0 else if p = 6 then .fetchGfx1
    else .fetchIdle p := by
  rcases subTilePhase_cases p with rfl | rfl | rfl | rfl | rfl | rfl | rfl | rfl <;> rfl

/-- The operation of a phase is what a tick fetches at it. -/
theorem exec_decodeFetch (p : BitVec 3) (s : State) : exec (decodeFetch p) s = .next (fetch p s) := by
  rcases subTilePhase_cases p with rfl | rfl | rfl | rfl | rfl | rfl | rfl | rfl <;> rfl

/-! ### The shift and the loads -/

theorem toNat_shiftLeft_two (sr : BitVec 16) : (sr <<< 2).toNat = sr.toNat * 4 % 65536 := by
  rw [BitVec.toNat_shiftLeft, Nat.shiftLeft_eq]

theorem shiftLeft_two_eq (sr : BitVec 16) : sr <<< 2 = BitVec.ofNat 16 (sr.toNat * 4 % 65536) := by
  rw [← toNat_shiftLeft_two, BitVec.ofNat_toNat, BitVec.setWidth_eq]

theorem loadShiftLo_eq (s : State) : loadShiftLo s =
    s.setPipe { s.pipe with sr := BitVec.ofNat 16 (s.pipe.sr.toNat / 256 * 256 + s.pipe.gfx0.toNat) } := by
  rw [← withLow_eq]; rfl

theorem loadShiftHi_eq (s : State) : loadShiftHi s =
    s.setPipe
      { s.pipe with sr := BitVec.ofNat 16 (s.pipe.sr.toNat / 256 * 256 + s.pipe.gfx1.toNat), attrA := s.pipe.attrF } := by
  rw [← withLow_eq]; rfl

/-- The shift of every tick, and then the load of the phase, if it has one. -/
theorem shiftLoad_eq (p : BitVec 3) (s : State) : shiftLoad p s =
    if p = 4 then loadShiftLo (shiftPixels s) else if p = 0 then loadShiftHi (shiftPixels s) else shiftPixels s := by
  rcases subTilePhase_cases p with rfl | rfl | rfl | rfl | rfl | rfl | rfl | rfl <;> rfl

/-- The latches after the shift and load in numbers (R275 to R277). -/
theorem shiftLoad_eq_setPipe_ofNat (p : BitVec 3) (s : State) : shiftLoad p s = s.setPipe
    { s.pipe with
      sr := BitVec.ofNat 16
        (if p = 4 then s.pipe.sr.toNat * 4 % 65536 / 256 * 256 + s.pipe.gfx0.toNat
        else if p = 0 then s.pipe.sr.toNat * 4 % 65536 / 256 * 256 + s.pipe.gfx1.toNat else s.pipe.sr.toNat * 4 % 65536)
      attrA := if p = 0 then s.pipe.attrF else s.pipe.attrA } := by
  have shifted : (shiftPixels s).pipe.sr.toNat = s.pipe.sr.toNat * 4 % 65536 := toNat_shiftLeft_two s.pipe.sr
  rw [shiftLoad_eq]
  by_cases h4 : p = 4
  · subst h4
    rw [if_pos rfl, if_pos rfl, if_neg (by decide), loadShiftLo_eq, shifted]; rfl
  · rw [if_neg h4, if_neg h4]
    by_cases h0 : p = 0
    · rw [if_pos h0, if_pos h0, if_pos h0, loadShiftHi_eq, shifted]; rfl
    · rw [if_neg h0, if_neg h0, if_neg h0, ← shiftLeft_two_eq]; rfl

/-! ### A tick -/

theorem pixelStage_pipe (s : State) :
    (pixelStage s).pipe = (latchPixel s.tim.hsub (shiftLoad s.tim.hsub (fetch s.tim.hsub s))).pipe :=
  drawPixel_pipe _

/-- The latches after a tick: those of its pixel stage, emptied where the early window opens (R222, R232). -/
theorem tick_pipe (s : State) : (tick s).pipe =
    if s.tim.hcount = 415 then { name := 0, attrF := 0, attrA := 0, gfx0 := 0, gfx1 := 0, sr := 0, pix := 0 }
    else (latchPixel s.tim.hsub (shiftLoad s.tim.hsub (fetch s.tim.hsub s))).pipe := by
  have step4 : (tick s).pipe = (hAdvance (pixelStage s)).pipe := by
    rw [apply_tick s State.pipe, lineEnd_pipe, ite_self]
  have opens : s.tim.hcount + 1 = Config.hEarly ↔ s.tim.hcount = 415 := Nat.succ_inj
  simp only [step4, hAdvance_pipe, pixelStage_tim, opens, pixelStage_pipe]

/-- Settles O50: the loads and the shift in numbers, the slot of each phase, and the pipeline after one tick. -/
theorem shiftAndLoad : Obligations.ShiftAndLoad := by
  refine ⟨fun s => ⟨?_, ?_, fun p => shiftLoad_eq_setPipe_ofNat p s⟩, fun p s => ⟨exec_decodeFetch p s, decodeFetch_eq p⟩, tick_pipe⟩
  · rw [← loadShiftLo_eq]; rfl
  · rw [← loadShiftHi_eq]; rfl

end Sys2Proof.Machine
end

section
/-! The pixel latch, the palette index and the colour (R278 to R282), in numbers. -/

namespace Sys2Proof.Machine

section Pixels
variable (s : State)

/-! ### The pixel latch (R278, R279) -/

/-- The top four or the top two bits of the shift register (R279). -/
theorem State.topPixel_eq : s.topPixel =
    BitVec.ofNat 4 (if s.bpp4 = true then s.pipe.sr.toNat / 4096 else s.pipe.sr.toNat / 16384) := by
  have hsr := s.pipe.sr.isLt
  apply BitVec.eq_of_toNat_eq
  rw [State.topPixel, BitVec.toNat_ofNat]
  split_ifs
  · rw [BitVec.extractLsb'_toNat, Nat.shiftRight_eq_div_pow]
  · simp only [toNat_append_add, BitVec.extractLsb'_toNat, Nat.shiftRight_eq_div_pow, BitVec.ofNat_eq_ofNat, BitVec.toNat_ofNat,
      Nat.reducePow]
    omega

/-- At four bits a pixel the latch is loaded on the even phases, at two bits on all (R278). -/
theorem latchPixel_eq (p : BitVec 3) : latchPixel p s = s.setPipe
    { s.pipe with
      pix :=
        if s.bpp4 = true then if p.toNat % 2 = 0 then BitVec.ofNat 4 (s.pipe.sr.toNat / 4096) else s.pipe.pix
        else BitVec.ofNat 4 (s.pipe.sr.toNat / 16384) } := by
  rw [latchPixel, s.topPixel_eq, State.pixPeriod]
  by_cases h : s.bpp4 = true
  · simp only [if_pos h, Config.pixPeriod4bpp]
    split_ifs <;> rfl
  · simp only [if_neg h, Config.pixPeriod2bpp, Nat.mod_one, if_true]

/-! ### The palette index (R280) -/

theorem State.palIndex_toNat : s.palIndex.toNat =
    if s.attr16 = true then if s.pipe.pix.toNat % 2 = 1 then s.pipe.attrA.toNat / 16 else s.pipe.attrA.toNat % 16
    else if s.bpp4 = true then s.pipe.attrA.toNat % 4 * 16 + s.pipe.pix.toNat
    else s.pipe.attrA.toNat % 8 * 4 + s.pipe.pix.toNat % 4 := by
  have hattr := s.pipe.attrA.isLt
  have half : s.pipe.pix.getLsbD 0 = true ↔ s.pipe.pix.toNat % 2 = 1 := by
    rw [BitVec.getLsbD, Nat.testBit_zero, decide_eq_true_iff]
  rw [State.palIndex]
  simp only [half]
  split_ifs
  all_goals
    simp only [toNat_append_add, BitVec.toNat_setWidth, BitVec.extractLsb'_toNat, Nat.shiftRight_eq_div_pow, BitVec.ofNat_eq_ofNat,
      BitVec.toNat_ofNat]
    omega

end Pixels

/-! ### The colour (R282) -/

theorem toNat_chroma (c : BitVec 2) : (Config.chroma c).toNat = 64 * c.toNat := by decide +revert

theorem toNat_luma (c : BitVec 2) : (Config.luma c).toNat = 21 * c.toNat := by decide +revert

/-- A channel does not overflow its byte: it is at most `64 * 3 + 21 * 3 = 255`. -/
theorem toNat_chroma_add_luma (c y : BitVec 2) : (Config.chroma c + Config.luma y).toNat = 64 * c.toNat + 21 * y.toNat := by
  have hc := c.isLt
  have hy := y.isLt
  rw [BitVec.toNat_add, toNat_chroma, toNat_luma]
  omega

theorem decodeColour_toNat (b : Byte) : (decodeColour b).toNat =
    0xFF000000 + (64 * (b.toNat / 16 % 4) + 21 * (b.toNat / 64)) * 65536 + (64 * (b.toNat / 4 % 4) + 21 * (b.toNat / 64)) * 256 +
      (64 * (b.toNat % 4) + 21 * (b.toNat / 64)) := by
  have hb := b.isLt
  simp only [decodeColour, toNat_append_add, toNat_chroma_add_luma, BitVec.extractLsb'_toNat, Nat.shiftRight_eq_div_pow,
    BitVec.ofNat_eq_ofNat, BitVec.toNat_ofNat, Nat.reducePow]
  omega

/-- Settles O51: the fields of the latches and of a palette byte as quotients and remainders. -/
theorem pixelsAndColours : Obligations.PixelsAndColours :=
  ⟨fun p s => latchPixel_eq s p, State.palIndex_toNat, decodeColour_toNat⟩

end Sys2Proof.Machine
end

section
/-! Neither stall lasts for ever (R312 to R314): a transfer completes step by step, so every event returns; and how long the wait for the
VRAM port is (R313). -/

namespace Sys2Proof.Machine

/-! ### A transfer completes -/

/-- A step of a transfer is granted and runs to its end, whatever its phases (R185, R186). -/
theorem dmaStepWith_returns {p : StepPlan} {f : DmaFlags} {i : Nat} {rd wr : State → State} {s : State}
    (hr : ∀ u, PhaseFrame u (rd u)) (hw : ∀ u, PhaseFrame u (wr u)) (h : TimingInv s) :
    ∃ t, dmaStepWith Config.dmaInterlock p f i rd wr s = some t ∧ TimingInv t := by
  obtain ⟨k, hgrant, -⟩ := arbitrate_grants h p.touchesVram i
  exact ⟨grantedStep p f rd wr (cycle^[k] s), by rw [dmaStepWith, hgrant, Option.map_some],
    timingInv_grantedStep hr hw (timingInv_iterate_cycle h k)⟩

/-- So is a step of the mode that the control byte selects. -/
theorem dmaStep_returns {s : State} (h : TimingInv s) (i : Nat) :
    ∃ t, dmaStep Config.dmaInterlock i s = some t ∧ TimingInv t := by
  obtain ⟨rd, wr, he, hr, hw⟩ := dmaStep_eq Config.dmaInterlock i s
  rw [he]
  exact dmaStepWith_returns (phaseFrame_read hr) (phaseFrame_write hw) h

/-- A write of `DRUN` returns (R160, R314). -/
theorem wrDrun_returns {s : State} (h : TimingInv s) (v : Byte) : ∃ t, exec (.wrDrun v) s = .next t := by
  show ∃ t, execWrDrun v s = .next t
  have hstart : TimingInv ((advance s).setDma { (advance s).dma with drun := v }) :=
    timingInv_of_eq (timingInv_advance h) rfl rfl rfl (Nat.le_refl _)
  obtain ⟨u, hu, -⟩ := dmaLoop_isSome (n := stepCount v) (i := 0) (fun i s hs => dmaStep_returns hs i) hstart
  rcases ioWriteStall_cases (fun u => dmaRun Config.dmaInterlock (u.setDma { u.dma with drun := v })) s with ⟨t, -, e⟩ | ⟨hnone, -⟩
  · exact ⟨_, e⟩
  · exact absurd (hu.symm.trans hnone) (Option.some_ne_none u)

/-- A write of `VWAIT` returns (R127, R312). -/
theorem wrVwait_returns {s : State} (h : TimingInv s) (v : Byte) : ∃ t, exec (.wrVwait v) s = .next t := by
  obtain ⟨t, ht, -⟩ := verticalBlankWait v s _ h rfl
  exact ⟨t, ht⟩

/-! ### Every event -/

/-- Every event names an operation: the bus decodes every address (R51, R80). -/
theorem decode_event {w : Selector} (hw : w.isEvent = true) : ∃ i, decode w = .instr i := by
  cases w with
  | cyc | sync | rd | wr => exact ⟨_, rfl⟩
  | dctl | fetchSlot | loadSlot | hcount | vcount => cases hw

/-- Settles O9: all but the two stalling writes answer a next state by their shape, and each of the two stalls ends. -/
theorem everyEventReturns : Obligations.EveryEventReturns := by
  intro s w rest h ht hw
  obtain ⟨i, hd⟩ := decode_event hw
  rw [step_of_trace ht hd]
  have hu : TimingInv (s.setTrace rest) := timingInv_of_eq h rfl rfl rfl (Nat.le_refl _)
  rcases exec_event i (s.setTrace rest) with
    hinner | ⟨n, -, hcount⟩ | hsync | ⟨u, -, haccess⟩ | ⟨u, -, hbank⟩ | ⟨v, rfl⟩ | ⟨v, rfl⟩
  · exact absurd (encode_isEvent hd hw) (Bool.eq_false_iff.mp hinner)
  · exact ⟨_, hcount⟩
  · exact ⟨_, hsync⟩
  · exact ⟨u, haccess⟩
  · exact ⟨u, hbank⟩
  · exact wrVwait_returns hu v
  · exact wrDrun_returns hu v

/-! ### The length of the wait for the VRAM port -/

/-- A caught-up engine repeats its place in a line every 96 cycles (R355). -/
theorem TimingInv.hcount_of_caughtUp {s : State} (h : TimingInv s) (hc : s.caughtUp) : s.tim.hcount = tickGoal (s.cpuCycles % 96) := by
  have hline : tickGoal s.cpuCycles = tickGoal (s.cpuCycles % 96) + 432 * (s.cpuCycles / 96) := by
    simp only [tickGoal, Config.clkNum, Config.clkDen]; omega
  have hlt : tickGoal (s.cpuCycles % 96) < 432 := by simp only [tickGoal, Config.clkNum, Config.clkDen]; omega
  rw [h.toEngineInv.counts.2, h.position_of_caughtUp hc, frameTicks, Nat.mod_mul_right_mod, hline, Nat.add_mul_mod_self_left,
    Nat.mod_eq_of_lt hlt]

/-- The horizontal count after `j` charged cycles. -/
theorem hcount_iterate_cycle {s : State} (h : TimingInv s) (hc : s.caughtUp) (j : Nat) :
    (cycle^[j] s).tim.hcount = tickGoal ((s.cpuCycles + j) % 96) := by
  rw [(timingInv_iterate_cycle h j).hcount_of_caughtUp (caughtUp_iterate_cycle h hc j), (iterate_cycle_clocks j s).1]

/-- The port is free on every line from `H_VIS_END` up to `H_EARLY` (R227, R231). -/
theorem EngineInv.vramBusy_of_gap {s : State} (h : EngineInv s) (h1 : Config.hVisEnd ≤ s.tim.hcount) (h2 : s.tim.hcount < Config.hEarly) :
    s.vramBusy = false := by
  have hbusy : s.tim.hbusy = false := by rw [Bool.eq_false_iff, Ne, h.hbusy]; omega
  rw [State.vramBusy, hbusy, Bool.false_and]

/-- From a caught-up engine the port is free within 75 cycles (R313): the gap of a line is its cycles 72 to 92 of 96. -/
theorem vramBusy_ends_within_75 {s : State} (h : TimingInv s) (hc : s.caughtUp) : ∃ k ≤ 75, (cycle^[k] s).vramBusy = false := by
  obtain ⟨k, hk, hgap⟩ : ∃ k ≤ 75, 72 ≤ (s.cpuCycles + k) % 96 ∧ (s.cpuCycles + k) % 96 ≤ 92 := by
    by_cases hin : 72 ≤ s.cpuCycles % 96 ∧ s.cpuCycles % 96 ≤ 92
    · exact ⟨0, by omega, hin⟩
    · exact ⟨(168 - s.cpuCycles % 96) % 96, by omega, by omega, by omega⟩
  have hcount := hcount_iterate_cycle h hc k
  simp only [tickGoal, Config.clkNum, Config.clkDen] at hcount
  refine ⟨k, hk, (timingInv_iterate_cycle h k).vramBusy_of_gap ?_ ?_⟩ <;> simp only [Config.hVisEnd, Config.hEarly] <;> omega

/-- Settles O47: the arbiter's wait loop ends with the first cycle that leaves the port free, no later than the gap of the line. -/
theorem arbiterWaitIsBounded : Obligations.ArbiterWaitIsBounded := by
  intro s h hc
  obtain ⟨n, hn, hfree⟩ := vramBusy_ends_within_75 h hc
  have hbound : n ≤ stallBound := hn.trans (by decide)
  obtain ⟨k, hk, hwait, hend, hbusy⟩ := stallWhile_le (busy := State.vramBusy) hbound hfree
  exact ⟨k, hk.trans hn, (if_pos ⟨rfl, .inl rfl⟩).trans hwait, hend, hbusy⟩

end Sys2Proof.Machine
end

section
/-! The interrupt request is a level (R306, R307): no operation lowers it but the acknowledgement, which lowers it with its flag. -/

namespace Sys2Proof.Machine

/-! ### Waits and transfers -/

/-- No charged cycle lowers the request. -/
theorem irq_iterate_cycle {s : State} (h : s.irq = true) (k : Nat) : (cycle^[k] s).irq = true := (engineFrame_iterate_cycle k s).irq h

/-- No step of a transfer lowers the request. -/
theorem dmaStepWith_irq {p : StepPlan} {f : DmaFlags} {i : Nat} {rd wr : State → State} {s t : State} (hr : ∀ u, PhaseFrame u (rd u))
    (hw : ∀ u, PhaseFrame u (wr u)) (h : dmaStepWith Config.dmaInterlock p f i rd wr s = some t) (hs : s.irq = true) : t.irq = true := by
  obtain ⟨k, rfl, -⟩ := dmaStepWith_eq_some h
  have hread : (rd (cycle^[k] s)).irq = true := (hr _).irq.trans (irq_iterate_cycle hs k)
  have hwrite : (wr (cycle (rd (cycle^[k] s)))).irq = true := (hw _).irq.trans (irq_iterate_cycle hread 1)
  exact irq_iterate_cycle hwrite 1

theorem dmaStep_irq {i : Nat} {s t : State} (h : dmaStep Config.dmaInterlock i s = some t) (hs : s.irq = true) : t.irq = true := by
  obtain ⟨rd, wr, he, hr, hw⟩ := dmaStep_eq Config.dmaInterlock i s
  exact dmaStepWith_irq (phaseFrame_read hr) (phaseFrame_write hw) (he.symm.trans h) hs

/-- A step of any mode, as an operation, has the plan of R187 and the phases of its mode. -/
theorem exec_dmaInstr (m : DmaMode) (f : DmaFlags) (i : Nat) (s : State) :
    ∃ rd wr, exec (dmaInstr m f i) s = ofStall (dmaStepWith Config.dmaInterlock (stepPlan m f) f i rd wr s) ∧
      (∀ u, PhaseFrame u (rd u)) ∧ ∀ u, PhaseFrame u (wr u) := by
  cases m with
  | copy => exact ⟨_, _, rfl, phaseFrame_read (.inl rfl), phaseFrame_write (i := i) (.inl rfl)⟩
  | fill => exact ⟨_, _, rfl, PhaseFrame.refl, phaseFrame_write (i := i) (.inl rfl)⟩
  | masked => exact ⟨_, _, rfl, phaseFrame_read (.inl rfl), phaseFrame_write (f := f) (i := i) (by simp)⟩
  | apa => exact ⟨_, _, rfl, phaseFrame_read (.inl rfl), phaseFrame_write (f := f) (i := i) (by simp)⟩
  | pal => exact ⟨_, _, rfl, phaseFrame_read (f := f) (by simp), phaseFrame_write (f := f) (i := i) (by simp)⟩
  | spr => exact ⟨_, _, rfl, phaseFrame_read (f := f) (by simp), phaseFrame_write (f := f) (i := i) (by simp)⟩
  | sprclr => exact ⟨_, _, rfl, PhaseFrame.refl, phaseFrame_write (f := f) (i := i) (by simp)⟩
  | altfill => exact ⟨_, _, rfl, PhaseFrame.refl, phaseFrame_write (f := f) (i := i) (by simp)⟩

/-- No step of a transfer, asked for by itself, lowers the request. -/
theorem exec_dmaInstr_irq {m : DmaMode} {f : DmaFlags} {i : Nat} {s t : State} (h : exec (dmaInstr m f i) s = .next t)
    (hs : s.irq = true) : t.irq = true := by
  obtain ⟨rd, wr, he, hr, hw⟩ := exec_dmaInstr m f i s
  rw [he] at h
  cases hstep : dmaStepWith Config.dmaInterlock (stepPlan m f) f i rd wr s with
  | none => rw [hstep] at h; cases h
  | some u =>
    rw [hstep] at h
    cases h
    exact dmaStepWith_irq hr hw hstep hs

/-- No transfer lowers the request. -/
theorem wrDrun_irq {v : Byte} {s t : State} (h : exec (.wrDrun v) s = .next t) (hs : s.irq = true) : t.irq = true := by
  obtain ⟨u, hu, rfl⟩ := wrDrun_next h
  have hstart : ((advance s).setDma { s.dma with drun := v }).irq = true := (engineFrame_advance s).irq hs
  exact (engineFrame_advance u).irq (dmaLoop_induction (P := fun x => x.irq = true) (fun i x y hx hy => dmaStep_irq hy hx) hstart hu)

theorem wrVwait_irq {v : Byte} {s t : State} (h : exec (.wrVwait v) s = .next t) (hs : s.irq = true) : t.irq = true := by
  obtain ⟨k, -, rfl, -⟩ := wrVwait_next h
  exact (engineFrame_advance _).irq (irq_iterate_cycle ((engineFrame_advance s).irq hs) k)

/-! ### Bus accesses -/

/-- A read of the I/O window leaves the request as the ticks due leave it: no read acknowledges (R125). -/
theorem exec_decodeIoRead_irq (r : Nat) (s : State) : ∃ t, exec (decodeIoRead r) s = .next t ∧ t.irq = (advance s).irq := by
  unfold decodeIoRead
  split
  case h_27 => split_ifs <;> exact ⟨_, rfl, rfl⟩
  all_goals exact ⟨_, rfl, rfl⟩

/-- A write of the I/O window is that of `VSTA`, stalls, or leaves the request to the ticks. -/
theorem exec_decodeIoWrite_irq (r : Nat) (v : Byte) (s : State) :
    r = 2 ∨ (decodeIoWrite r v = .wrVwait v ∨ decodeIoWrite r v = .wrDrun v) ∨
      ∃ u, exec (decodeIoWrite r v) s = .next (advance u) ∧ u.irq = (advance s).irq := by
  unfold decodeIoWrite
  split
  case h_3 => exact .inl rfl
  case h_4 => exact .inr (.inl (.inl rfl))
  case h_14 => exact .inr (.inr ⟨_, rfl, (phaseFrame_sprWrite (advance s) _ v).irq⟩)
  case h_20 => exact .inr (.inl (.inr rfl))
  case h_27 => split_ifs <;> exact .inr (.inr ⟨_, rfl, rfl⟩)
  all_goals exact .inr (.inr ⟨_, rfl, rfl⟩)

/-- No bus read lowers the request. -/
theorem exec_decodeRead_irq {a : Addr} {s t : State} (h : exec (decodeRead a) s = .next t) (hs : s.irq = true) : t.irq = true := by
  cases hio : inIoWindow a with
  | true =>
    obtain ⟨u, hu, hirq⟩ := exec_decodeIoRead_irq (a.toNat - Config.ioBase) s
    rw [decodeRead_of_io hio, hu] at h
    cases h
    exact hirq.trans ((engineFrame_advance s).irq hs)
  | false =>
    rw [decodeRead_of_not_io hio, exec_decodeBankRead] at h
    cases h
    exact hs

/-- No bus write but that of `VSTA` lowers the request. -/
theorem exec_decodeWrite_irq {a : Addr} {v : Byte} {s t : State} (h : exec (decodeWrite a v) s = .next t) (hs : s.irq = true) :
    a = 0x00C2 ∨ t.irq = true := by
  cases hio : inIoWindow a with
  | true =>
    rw [decodeWrite_of_io v hio] at h
    rcases exec_decodeIoWrite_irq (a.toNat - Config.ioBase) v s with hvsta | (hi | hi) | ⟨u, hu, hirq⟩
    · left
      rw [Config.ioBase] at hvsta
      exact BitVec.eq_of_toNat_eq (show a.toNat = 0xC2 by omega)
    · rw [hi] at h; exact .inr (wrVwait_irq h hs)
    · rw [hi] at h; exact .inr (wrDrun_irq h hs)
    · rw [hu] at h
      cases h
      exact .inr ((engineFrame_advance u).irq (hirq.trans ((engineFrame_advance s).irq hs)))
  | false =>
    rw [decodeWrite_of_not_io v hio, exec_decodeBankWrite] at h
    cases h
    rw [State.bankWrite_eq_setMem]
    exact .inr hs

/-! ### The inside of the block -/

/-- The shift-register loads write pipeline latches only. -/
theorem exec_decodeLoad_irq {p : BitVec 3} {i : Instr} {s t : State} (hd : decodeLoad p = .instr i) (h : exec i s = .next t) :
    t.irq = s.irq := by
  unfold decodeLoad at hd
  split at hd <;> cases hd
  · cases h; rfl
  · cases h; rfl

/-- No horizontal action lowers the request; the line end may raise it (R234, R240). -/
theorem exec_decodeHcount_irq {n k : Nat} {i : Instr} {s t : State} (hd : decodeHcount n k = .instr i) (h : exec i s = .next t)
    (hs : s.irq = true) : t.irq = true := by
  unfold decodeHcount at hd
  split_ifs at hd <;> cases hd <;> cases h
  -- the eighth row is the line end
  on_goal 8 => exact (engineFrame_lineEnd s).irq hs
  all_goals exact hs

/-- No vertical action lowers the request; `V_SYNC_START` may raise it (R240). -/
theorem exec_decodeVcount_irq {n : Nat} {i : Instr} {s t : State} (hd : decodeVcount n = .instr i) (h : exec i s = .next t)
    (hs : s.irq = true) : t.irq = true := by
  unfold decodeVcount at hd
  split_ifs at hd <;> cases hd <;> cases h
  -- the second row is `V_SYNC_START`
  on_goal 2 => exact (engineFrame_raiseVsync s).irq hs
  all_goals exact hs

/-! ### The acknowledgement -/

theorem decodeWrite_vsta (v : Byte) : decodeWrite 0x00C2 v = .wrVsta v := Decoded.instr.inj (Laws.RoundTrip.wrVsta v rfl)

/-- A write of `VSTA` that leaves the vertical-sync flag alone leaves the request (R126, R307). -/
theorem wrVsta_irq {v : Byte} {s t : State} (hstatus : StatusInv s) (hv : v.getLsbD 0 = false) (h : exec (.wrVsta v) s = .next t)
    (hs : s.irq = true) : t.irq = true := by
  have hirq : (advance s).irq = true := (engineFrame_advance s).irq hs
  rw [exec_wrVsta] at h
  cases h
  rw [ackStatus_eq, State.setIrq_irq, hirq, BitVec.getLsbD_and, advance_request hstatus hirq, BitVec.getLsbD_not, hv]
  rfl

/-- Settles O17: of all the operations only the acknowledgement lowers the request, and only with bit 0 of the byte written. -/
theorem interruptStaysUntilAcknowledged : Obligations.InterruptStaysUntilAcknowledged := by
  intro s t w rest hstatus hs ht h
  obtain ⟨w', rest', i, ht', hd, hx⟩ := step_eq_next h
  obtain ⟨rfl, rfl⟩ := List.cons.inj (ht.symm.trans ht')
  have hrequest : (s.setTrace rest).irq = true := hs
  cases w with
  | cyc n => cases hd; cases hx; exact .inl hs
  | sync => cases hd; cases hx; exact .inl ((engineFrame_advance _).irq hrequest)
  | rd a => cases hd; exact .inl (exec_decodeRead_irq hx hrequest)
  | wr a v =>
    cases hd
    rcases exec_decodeWrite_irq hx hrequest with rfl | hkept
    · cases hv : v.getLsbD 0 with
      | true => exact .inr ⟨v, rfl, hv⟩
      | false =>
        rw [decodeWrite_vsta] at hx
        exact .inl (wrVsta_irq (s := s.setTrace rest) ⟨hstatus.flags, hstatus.request⟩ hv hx hrequest)
    · exact .inl hkept
  | dctl b k =>
    rw [decode, decodeDctl] at hd
    split at hd <;> cases hd
    exact .inl (exec_dmaInstr_irq hx hrequest)
  | fetchSlot p =>
    cases hd
    rw [exec_decodeFetch] at hx
    cases hx
    exact .inl ((fetch_irq p _).trans hrequest)
  | loadSlot p => exact .inl ((exec_decodeLoad_irq hd hx).trans hrequest)
  | hcount n k => exact .inl (exec_decodeHcount_irq hd hx hrequest)
  | vcount n => exact .inl (exec_decodeVcount_irq hd hx hrequest)

end Sys2Proof.Machine
end

section
/-! A charged cycle (R184, R355): how many ticks fall in it. -/

namespace Sys2Proof.Machine

/-- The ticks due after one more cycle, by the parity of the count. -/
theorem tickGoal_succ_sub (c : Nat) : tickGoal (c + 1) - tickGoal c = if c % 2 = 0 then 4 else 5 := by
  rw [tickGoal_eq, tickGoal_eq]
  exact clockEvents.1 c

theorem cycle_of_caughtUp {s : State} (h : s.caughtUp) :
    cycle s = ticks (if s.cpuCycles % 2 = 0 then 4 else 5) (s.addCycles 1) := by
  rw [cycle, advance, addCycles_cpuCycles, addCycles_pixelClock, h, tickGoal_succ_sub]

/-- Settles O19: a caught-up engine has its tick count at the goal, so a cycle runs the ticks by which the goal moves on. -/
theorem cyclesCarryFourOrFiveTicks : Obligations.CyclesCarryFourOrFiveTicks := by
  intro s h
  refine ⟨cycle_of_caughtUp h, caughtUp_cycle h.le, ?_⟩
  rw [cycle_of_caughtUp h, ticks_pixelClock, addCycles_pixelClock]

end Sys2Proof.Machine
end

section
/-! Reset (R330, R331): the registers and timing elements take the values of the reset state; memory and picture stay. -/

namespace Sys2Proof.Machine

open Sys2Proof.Config (Region)

section Reset
variable (s : State)

/-! ### What reset writes (R330) -/

@[simp] theorem applyReset_cpuCycles : (applyReset s).cpuCycles = 0 := rfl
@[simp] theorem applyReset_pixelClock : (applyReset s).pixelClock = 0 := rfl
@[simp] theorem applyReset_video : (applyReset s).video = State.reset.video := rfl
@[simp] theorem applyReset_dma : (applyReset s).dma = State.reset.dma := rfl
@[simp] theorem applyReset_sys : (applyReset s).sys = State.reset.sys := rfl
@[simp] theorem applyReset_irq : (applyReset s).irq = false := rfl
@[simp] theorem applyReset_tim : (applyReset s).tim = State.reset.tim := rfl
@[simp] theorem applyReset_pipe : (applyReset s).pipe = State.reset.pipe := rfl
@[simp] theorem applyReset_raster : (applyReset s).raster = { s.raster with row := 24, col := 32 } := rfl
@[simp] theorem applyReset_framesOut : (applyReset s).framesOut = [] := rfl

/-! ### What it leaves (R331) -/

@[simp] theorem applyReset_mem : (applyReset s).mem = s.mem := rfl

@[simp] theorem applyReset_peek (r : Region) (a : Nat) : (applyReset s).peek r a = s.peek r a := by
  rw [State.peek, applyReset_mem, State.peek]

end Reset

/-- The reset state is where reset leads from itself. -/
theorem applyReset_reset : applyReset State.reset = State.reset := rfl

/-- A framebuffer that lists no pixel is `FB_INIT` everywhere (R331). -/
theorem fbRead_nil (row col : Nat) : fbRead [] row col = 0xFF000000 := rfl

/-- Settles O6: each register and timing element by its own lemma, then the memories and the picture. -/
theorem resetLeaves : Obligations.ResetLeaves := by
  refine ⟨fun s => ?_, applyReset_reset, fbRead_nil⟩
  rw [applyReset_raster]
  exact ⟨applyReset_cpuCycles s, applyReset_pixelClock s, applyReset_video s, applyReset_dma s, applyReset_sys s, applyReset_irq s,
    applyReset_tim s, applyReset_pipe s, rfl, rfl, applyReset_framesOut s, rfl, applyReset_peek s⟩

end Sys2Proof.Machine
end

section
/-! What ticks do not read (R2, R15, R67, R113, R132, R220): the cycle count, the memories of the CPU and of the sprites, the horizontal
fine scroll. -/

namespace Sys2Proof.Machine

/-! ### System memory, sprite memory and the fine scroll -/

theorem raiseVsync_setScrhf (x : BitVec 3) (s : State) :
    raiseVsync (s.setVideo { s.video with scrhf := x }) = (raiseVsync s).setVideo { (raiseVsync s).video with scrhf := x } := by
  unfold raiseVsync
  dsimp only
  rw [apply_ite (fun u : State => u.setVideo { u.video with scrhf := x })]
  rfl

/-- No step of a tick reads the horizontal fine scroll (R132). -/
theorem unread_setScrhf (x : BitVec 3) : Unread (fun s => s.setVideo { s.video with scrhf := x }) := by
  constructor
  case raiseVsync => exact fun s => (raiseVsync_setScrhf x s).symm
  all_goals intros; rfl

/-- Settles O58: a write of what no step of a tick reads may be exchanged with ticks. -/
theorem ticksReadNoSystemMemory : Obligations.TicksReadNoSystemMemory :=
  ⟨fun s n a _ v hvram hpal => ticks_poke hvram hpal n a v s,
    fun s n x => (unread_setScrhf x).ticks (fun _ _ _ => rfl) (fun _ => rfl) (fun _ => rfl) n s⟩

/-! ### The cycle count -/

theorem raiseVsync_addCycles (n : Nat) (s : State) : raiseVsync (s.addCycles n) = (raiseVsync s).addCycles n := by
  unfold raiseVsync
  dsimp only
  rw [apply_ite (fun u : State => u.addCycles n)]
  rfl

/-- No step of a tick reads the cycle count: it says how many ticks are due, not what they do (R220). -/
theorem unread_addCycles (n : Nat) : Unread (fun s => s.addCycles n) := by
  constructor
  case raiseVsync => exact fun s => (raiseVsync_addCycles n s).symm
  all_goals intros; rfl

/-- Cycles may be counted before or after ticks. -/
theorem ticks_addCycles (n m : Nat) (s : State) : ticks m (s.addCycles n) = (ticks m s).addCycles n := by
  induction m generalizing s with
  | zero => rfl
  | succ m ih =>
    have counted : countedTick (s.addCycles n) = (countedTick s).addCycles n := by
      rw [countedTick, (unread_addCycles n).tick s]; rfl
    rw [ticks, ticks, counted, ih]

theorem tickGoal_mono {c d : Nat} (h : c ≤ d) : tickGoal c ≤ tickGoal d := Nat.div_le_div_right (Nat.mul_le_mul_right _ h)

/-- Settles O20: the ticks due after `a` cycles are the first of those due after `a + b`, and the count of the cycles moves past them. -/
theorem catchingUpEarlierChangesNothing : Obligations.CatchingUpEarlierChangesNothing := by
  intro s a b
  have split : tickGoal (s.cpuCycles + (a + b)) - s.pixelClock =
      (tickGoal (s.cpuCycles + a) - s.pixelClock) +
        (tickGoal (s.cpuCycles + a + b) - (s.pixelClock + (tickGoal (s.cpuCycles + a) - s.pixelClock))) := by
    have goal := tickGoal_mono (Nat.le_add_right (s.cpuCycles + a) b)
    rw [← Nat.add_assoc]; omega
  have counted : (s.addCycles a).addCycles b = s.addCycles (a + b) := by
    simp only [State.addCycles, State.setClocks, Nat.add_assoc]
  have early : ((advance (s.addCycles a)).addCycles b) = ticks (tickGoal (s.cpuCycles + a) - s.pixelClock) (s.addCycles (a + b)) := by
    rw [advance, ← ticks_addCycles, counted]; rfl
  rw [early, advance, advance, addCycles_cpuCycles, addCycles_pixelClock, split, ticks_add, ticks_pixelClock,
    (engineFrame_ticks _ _).cpuCycles, addCycles_cpuCycles, addCycles_pixelClock, Nat.add_assoc s.cpuCycles a b]

end Sys2Proof.Machine
end

section
/-! The encoding is one to one (R51, R80 to R87, R98, R223, R235, R260): a well-formed operation is read back from its encoding, and a
selector that names an operation is that operation's encoding. -/

namespace Sys2Proof

/-! ### From the operation to its encoding and back -/

open Laws.RoundTrip in
/-- A well-formed operation is read back from its encoding, row by row. -/
theorem decode_encode (i : Instr) : i.wf = true → decode (encode i) = .instr i :=
  match i with
  | .rdVctl => rdVctl | .wrVctl v => wrVctl v | .rdVena => rdVena | .wrVena v => wrVena v | .rdVsta => rdVsta | .wrVsta v => wrVsta v
  | .rdVwait => rdVwait | .wrVwait v => wrVwait v | .rdScrh => rdScrh | .wrScrh v => wrScrh v | .rdScrhf => rdScrhf
  | .wrScrhf v => wrScrhf v | .rdScrv => rdScrv | .wrScrv v => wrScrv v | .rdScrvf => rdScrvf | .wrScrvf v => wrScrvf v
  | .rdNtsize => rdNtsize | .wrNtsize v => wrNtsize v | .rdNtbase => rdNtbase | .wrNtbase v => wrNtbase v | .rdPala => rdPala
  | .wrPala v => wrPala v | .rdPald => rdPald | .wrPald v => wrPald v | .rdSpra => rdSpra | .wrSpra v => wrSpra v | .rdSprd => rdSprd
  | .wrSprd v => wrSprd v | .rdDsrcl => rdDsrcl | .wrDsrcl v => wrDsrcl v | .rdDsrch => rdDsrch | .wrDsrch v => wrDsrch v
  | .rdDdstl => rdDdstl | .wrDdstl v => wrDdstl v | .rdDdsth => rdDdsth | .wrDdsth v => wrDdsth v | .rdDctl => rdDctl
  | .wrDctl v => wrDctl v | .rdDrun => rdDrun | .wrDrun v => wrDrun v | .rdDfill => rdDfill | .wrDfill v => wrDfill v
  | .rdDpage => rdDpage | .wrDpage v => wrDpage v | .rdBank2 => rdBank2 | .wrBank2 v => wrBank2 v | .rdBank3 => rdBank3
  | .wrBank3 v => wrBank3 v | .rdKcol => rdKcol | .wrKcol v => wrKcol v | .rdKdata => rdKdata | .wrKdata v => wrKdata v
  | .rdAudio n => rdAudio n | .wrAudio n v => wrAudio n v | .rdUnmappedCE n => rdUnmappedCE n | .wrUnmappedCE n v => wrUnmappedCE n v
  | .rdUnmappedD6 n => rdUnmappedD6 n | .wrUnmappedD6 n v => wrUnmappedD6 n v | .rdUnmappedDE n => rdUnmappedDE n
  | .wrUnmappedDE n v => wrUnmappedDE n v | .rdUnmappedF0 n => rdUnmappedF0 n | .wrUnmappedF0 n v => wrUnmappedF0 n v
  | .rdMem0 off => rdMem0 off | .wrMem0 off v => wrMem0 off v | .rdMem1 off => rdMem1 off | .wrMem1 off v => wrMem1 off v
  | .rdMem2 off => rdMem2 off | .wrMem2 off v => wrMem2 off v | .rdMem3 off => rdMem3 off | .wrMem3 off v => wrMem3 off v
  | .cycN n => cycN n | .sync => sync | .dmaCopy f i => dmaCopy f i | .dmaFill f i => dmaFill f i | .dmaMasked f i => dmaMasked f i
  | .dmaApa f i => dmaApa f i | .dmaPal f i => dmaPal f i | .dmaSpr f i => dmaSpr f i | .dmaSprclr f i => dmaSprclr f i
  | .dmaAltfill f i => dmaAltfill f i | .fetchName => fetchName | .fetchAttr => fetchAttr | .fetchGfx0 => fetchGfx0
  | .fetchGfx1 => fetchGfx1 | .fetchIdle p => fetchIdle p | .loadShiftLo => loadShiftLo | .loadShiftHi => loadShiftHi
  | .htHVisEnd => htHVisEnd | .htHSyncStart => htHSyncStart | .htHSyncEnd => htHSyncEnd | .htHEarly1 => htHEarly1
  | .htHEarly2 => htHEarly2 | .htHEarly3 => htHEarly3 | .htHEarly4 => htHEarly4 | .htHTotal => htHTotal | .vtVVisEnd => vtVVisEnd
  | .vtVSyncStart => vtVSyncStart | .vtVSyncEnd => vtVSyncEnd | .vtVTotal => vtVTotal

/-! ### From a bus address to the operation and back -/

/-- An address of the I/O window is its base and an offset (R51). -/
theorem exists_offset_of_io {a : Addr} (h : inIoWindow a = true) : ∃ r < 64, a = BitVec.ofNat 16 (192 + r) := by
  obtain ⟨hlow, hhigh⟩ := (inIoWindow_iff a).mp h
  refine ⟨a.toNat - 192, by omega, BitVec.eq_of_toNat_eq ?_⟩
  rw [BitVec.toNat_ofNat]; omega

/-- The operation of each of the 64 read offsets is encoded by its own address (R80). -/
theorem encode_decodeIoRead {r : Nat} (h : r < 64) :
    encode (decodeIoRead r) = .rd (BitVec.ofNat 16 (192 + r)) ∧ (decodeIoRead r).wf = true := by
  interval_cases r <;> exact ⟨rfl, rfl⟩

/-- The operation of each of the 64 write offsets is encoded by its own address and the byte (R80). -/
theorem encode_decodeIoWrite {r : Nat} (h : r < 64) (v : Byte) :
    encode (decodeIoWrite r v) = .wr (BitVec.ofNat 16 (192 + r)) v ∧ (decodeIoWrite r v).wf = true := by
  interval_cases r <;> exact ⟨rfl, rfl⟩

/-- An address of bank window 0 outside the I/O window is not hidden by it (R51, R116). -/
theorem underIoWindow_addrOffset {a : Addr} (hio : inIoWindow a = false) (hw : addrWindow a = 0) :
    underIoWindow (addrOffset a) = false := by
  have h := inIoWindow_append (addrWindow a) (addrOffset a)
  rw [show addrWindow a ++ addrOffset a = a from Machine.windowAddr_addrWindow_addrOffset a, hio, hw] at h
  exact h.symm

/-- An access of a bank window is encoded by its window and offset, that is by its address (R55). -/
theorem encode_decodeBankRead {a : Addr} (hio : inIoWindow a = false) :
    encode (decodeBankRead a) = .rd a ∧ (decodeBankRead a).wf = true := by
  have whole : .rd (addrWindow a ++ addrOffset a) = Selector.rd a := congrArg _ (Machine.windowAddr_addrWindow_addrOffset a)
  unfold decodeBankRead
  rcases Machine.window_cases (addrWindow a) with h | h | h | h <;> rw [h] at whole ⊢
  · exact ⟨whole, congrArg not (underIoWindow_addrOffset hio h)⟩
  · exact ⟨whole, rfl⟩
  · exact ⟨whole, rfl⟩
  · exact ⟨whole, rfl⟩

theorem encode_decodeBankWrite {a : Addr} (v : Byte) (hio : inIoWindow a = false) :
    encode (decodeBankWrite a v) = .wr a v ∧ (decodeBankWrite a v).wf = true := by
  have whole : .wr (addrWindow a ++ addrOffset a) v = Selector.wr a v :=
    congrArg (Selector.wr · v) (Machine.windowAddr_addrWindow_addrOffset a)
  unfold decodeBankWrite
  rcases Machine.window_cases (addrWindow a) with h | h | h | h <;> rw [h] at whole ⊢
  · exact ⟨whole, congrArg not (underIoWindow_addrOffset hio h)⟩
  · exact ⟨whole, rfl⟩
  · exact ⟨whole, rfl⟩
  · exact ⟨whole, rfl⟩

theorem encode_decodeRead (a : Addr) : encode (decodeRead a) = .rd a ∧ (decodeRead a).wf = true := by
  cases hio : inIoWindow a with
  | true =>
    obtain ⟨r, hr, rfl⟩ := exists_offset_of_io hio
    rw [Decoded.instr.inj (decode_io_read hr)]
    exact encode_decodeIoRead hr
  | false =>
    rw [decodeRead_of_not_io hio]
    exact encode_decodeBankRead hio

theorem encode_decodeWrite (a : Addr) (v : Byte) : encode (decodeWrite a v) = .wr a v ∧ (decodeWrite a v).wf = true := by
  cases hio : inIoWindow a with
  | true =>
    obtain ⟨r, hr, rfl⟩ := exists_offset_of_io hio
    rw [Decoded.instr.inj (decode_io_write hr v)]
    exact encode_decodeIoWrite hr v
  | false =>
    rw [decodeWrite_of_not_io v hio]
    exact encode_decodeBankWrite v hio

/-! ### From an inner selector to the operation and back -/

/-- The mode code of a mode (R87). -/
def DmaMode.code : DmaMode → BitVec 3
  | .copy => 0
  | .fill => 1
  | .masked => 2
  | .apa => 3
  | .pal => 4
  | .spr => 5
  | .sprclr => 6
  | .altfill => 7

theorem encode_dmaInstr (m : DmaMode) (f : DmaFlags) (i : Nat) : encode (dmaInstr m f i) = .dctl (dctlByte f m.code) i := by
  cases m <;> rfl

theorem wf_dmaInstr (m : DmaMode) (f : DmaFlags) (i : Nat) : (dmaInstr m f i).wf = stepIndexOk i := by
  cases m <;> rfl

/-- A control byte is its flags and its mode code: no bit of it is dropped (R86, R98). -/
theorem dctlByte_dmaFlagsOf (b : Byte) : dctlByte (dmaFlagsOf b) (dmaModeOf b).code = b := by
  revert b; decide +kernel

theorem encode_of_decodeDctl {b : Byte} {k : Nat} {i : Instr} (h : decodeDctl b k = .instr i) :
    encode i = .dctl b k ∧ i.wf = true := by
  unfold decodeDctl at h
  split at h
  next hk =>
    cases h
    rw [encode_dmaInstr, wf_dmaInstr, dctlByte_dmaFlagsOf]
    exact ⟨rfl, hk⟩
  next => cases h

/-- Each of the eight phases has its slot, of which the odd ones are idle (R260). -/
theorem encode_decodeFetch (p : BitVec 3) : encode (decodeFetch p) = .fetchSlot p ∧ (decodeFetch p).wf = true := by
  rcases Machine.subTilePhase_cases p with rfl | rfl | rfl | rfl | rfl | rfl | rfl | rfl <;> exact ⟨rfl, rfl⟩

theorem encode_of_decodeLoad {p : BitVec 3} {i : Instr} (h : decodeLoad p = .instr i) : encode i = .loadSlot p ∧ i.wf = true := by
  rcases Machine.subTilePhase_cases p with rfl | rfl | rfl | rfl | rfl | rfl | rfl | rfl <;> cases h <;> exact ⟨rfl, rfl⟩

/-- A row of the table of horizontal actions, met by its two counts (R223). -/
theorem encode_of_hcount_row {n k n' k' : Nat} {i : Instr} (h : n = n' ∧ k = k') (row : encode i = .hcount n' k' ∧ i.wf = true) :
    encode i = .hcount n k ∧ i.wf = true := by
  obtain ⟨rfl, rfl⟩ := h
  exact row

theorem encode_of_decodeHcount {n k : Nat} {i : Instr} (h : decodeHcount n k = .instr i) : encode i = .hcount n k ∧ i.wf = true := by
  unfold decodeHcount at h
  split_ifs at h with h1 h2 h3 h4 h5 h6 h7 h8 <;> cases h
  · exact encode_of_hcount_row h1 ⟨rfl, rfl⟩
  · exact encode_of_hcount_row h2 ⟨rfl, rfl⟩
  · exact encode_of_hcount_row h3 ⟨rfl, rfl⟩
  · exact encode_of_hcount_row h4 ⟨rfl, rfl⟩
  · exact encode_of_hcount_row h5 ⟨rfl, rfl⟩
  · exact encode_of_hcount_row h6 ⟨rfl, rfl⟩
  · exact encode_of_hcount_row h7 ⟨rfl, rfl⟩
  · exact encode_of_hcount_row h8 ⟨rfl, rfl⟩

theorem encode_of_decodeVcount {n : Nat} {i : Instr} (h : decodeVcount n = .instr i) : encode i = .vcount n ∧ i.wf = true := by
  unfold decodeVcount at h
  split_ifs at h <;> cases h <;> subst n <;> exact ⟨rfl, rfl⟩

/-- A selector that names an operation is its encoding, and the operation is well-formed. -/
theorem encode_of_decode {w : Selector} {i : Instr} (h : decode w = .instr i) : encode i = w ∧ i.wf = true := by
  cases w with
  | cyc n => cases h; exact ⟨rfl, rfl⟩
  | sync => cases h; exact ⟨rfl, rfl⟩
  | rd a => cases h; exact encode_decodeRead a
  | wr a v => cases h; exact encode_decodeWrite a v
  | dctl b k => exact encode_of_decodeDctl h
  | fetchSlot p => cases h; exact encode_decodeFetch p
  | loadSlot p => exact encode_of_decodeLoad h
  | hcount n k => exact encode_of_decodeHcount h
  | vcount n => exact encode_of_decodeVcount h

/-! ### The statements -/

/-- Settles O1: row by row in one direction; in the other, what is decoded is well-formed. -/
theorem decodeAndEncodeAgree : Obligations.DecodeAndEncodeAgree := fun i => ⟨fun h => (encode_of_decode h).2, decode_encode i⟩

/-- Settles O2: the encoding of what a selector names is the selector; the bus decodes every address. -/
theorem everyEventHasOneOperation : Obligations.EveryEventHasOneOperation :=
  ⟨fun _ _ => encode_of_decode, fun _ => Machine.decode_event⟩

/-- Settles O4: these selectors are the encodings of those operations. -/
theorem writtenEncodingsDecode : Obligations.WrittenEncodingsDecode :=
  ⟨rfl, rfl, decode_encode .rdVsta rfl, decode_encode (.wrDrun 0x10) rfl, decode_encode .rdPald rfl, decode_encode (.wrBank2 0x01) rfl,
    decode_encode (.rdAudio 5) rfl, decode_encode (.rdUnmappedCE 1) rfl, decode_encode (.rdMem0 0x1234) rfl,
    decode_encode (.wrMem3 0x0001 0x7F) rfl, decode_encode (.dmaMasked ⟨true, true, false, true, false⟩ 3) rfl,
    decode_encode .fetchGfx0 rfl, decode_encode .loadShiftHi rfl, decode_encode .htHEarly3 rfl, decode_encode .vtVSyncStart rfl⟩

end Sys2Proof
end

section
/-! Writes of the video registers (R122 to R146), the keyboard read (R171), the interlock policies (R185) and the threshold actions (R227
to R242), each by itself. -/

namespace Sys2Proof.Machine

open Sys2Proof.Config (Interlock)

/-! ### Writes of the video registers -/

theorem ioWrite_setVideo {g : State → VideoRegs} {s : State} {x : VideoRegs} (h : g (advance s) = x) :
    ioWrite (fun u => u.setVideo (g u)) s = .next ((advance s).setVideo x) :=
  ioWrite_effect (fun _ => engineSame_setVideo _ _) (by rw [h])

section VideoWrites
variable (v : Byte) (s : State)
theorem exec_wrVctl : exec (.wrVctl v) s = .next ((advance s).setVideo { (advance s).video with vctl := v }) :=
  show execWrVctl v s = _ from ioWrite_setVideo rfl
theorem exec_wrScrh : exec (.wrScrh v) s = .next ((advance s).setVideo { (advance s).video with scrh := v }) :=
  show execWrScrh v s = _ from ioWrite_setVideo rfl
theorem exec_wrScrhf :
    exec (.wrScrhf v) s = .next ((advance s).setVideo { (advance s).video with scrhf := BitVec.ofNat 3 (v.toNat % 8) }) :=
  show execWrScrhf v s = _ from ioWrite_setVideo (by rw [setWidth_eq_ofNat_mod]; rfl)
theorem exec_wrScrv : exec (.wrScrv v) s = .next ((advance s).setVideo { (advance s).video with scrv := v }) :=
  show execWrScrv v s = _ from ioWrite_setVideo rfl
theorem exec_wrScrvf :
    exec (.wrScrvf v) s = .next ((advance s).setVideo { (advance s).video with scrvf := BitVec.ofNat 3 (v.toNat % 8) }) :=
  show execWrScrvf v s = _ from ioWrite_setVideo (by rw [setWidth_eq_ofNat_mod]; rfl)
theorem exec_wrNtsize : exec (.wrNtsize v) s = .next ((advance s).setVideo { (advance s).video with ntsize := v }) :=
  show execWrNtsize v s = _ from ioWrite_setVideo rfl
theorem exec_wrNtbase : exec (.wrNtbase v) s = .next ((advance s).setVideo { (advance s).video with ntbase := v }) :=
  show execWrNtbase v s = _ from ioWrite_setVideo rfl
theorem exec_wrPala :
    exec (.wrPala v) s = .next ((advance s).setVideo { (advance s).video with pala := BitVec.ofNat 6 (v.toNat % 64) }) :=
  show execWrPala v s = _ from ioWrite_setVideo rfl
theorem exec_wrSpra : exec (.wrSpra v) s = .next ((advance s).setVideo { (advance s).video with spra := v }) :=
  show execWrSpra v s = _ from ioWrite_setVideo rfl
end VideoWrites

/-- Settles O29: the ticks due, then a plain store, after which no tick is due. -/
theorem videoRegisterWrites : Obligations.VideoRegisterWrites := fun v s =>
  ⟨exec_wrVctl v s, exec_wrScrh v s, exec_wrScrhf v s, exec_wrScrv v s, exec_wrScrvf v s, exec_wrNtsize v s, exec_wrNtbase v s,
    exec_wrPala v s, exec_wrSpra v s⟩

/-! ### The keyboard -/

/-- Settles O26: ticks move neither the column register nor the bytes returned so far, which the provider is asked with. -/
theorem keyboardRead : Obligations.KeyboardRead := fun s =>
  show execRdKdata s = _ from ioRead_returns (by rw [advance_readsOut, advance_sys])

/-! ### The interlock policies -/

/-- A policy asks the arbiter before a step that touches VRAM: `perStep` before each, `perBlock` before the first (R185). -/
theorem arbitrate_eq (pol : Interlock) (touches : Bool) (i : Nat) (s : State) :
    arbitrate pol touches i s =
      if touches = true ∧ (pol = .perStep ∨ i = 0) then stallWhile State.vramBusy stallBound s else some s := rfl

/-- Settles O48: when each policy asks, and that a free port is granted at once. -/
theorem interlockPolicies : Obligations.InterlockPolicies := by
  refine ⟨fun touches i s => ?_, fun pol i s => ?_, fun pol touches i s hfree => ?_, rfl⟩
  · rw [arbitrate_eq, arbitrate_eq]
    by_cases hi : i = 0
    · simp [hi]
    · simp [hi]
  · rw [arbitrate_eq, if_neg fun h => Bool.false_ne_true h.1]
  · rw [arbitrate_eq, stallWhile_of_false (busy := State.vramBusy) stallBound hfree, ite_self]

/-! ### The thresholds -/

/-- Raising the flag in one equation: the request with it, if it is enabled (R240, R305). -/
theorem raiseVsync_eq (s : State) :
    raiseVsync s = (s.setVideo { s.video with vsta := s.video.vsta ||| 1 }).setIrq (s.irq || s.video.vena.getLsbD 0) := by
  unfold raiseVsync
  dsimp only
  rw [State.setVideo_video]
  split
  next h => rw [h, Bool.or_true]
  next h => rw [Bool.eq_false_iff.mpr h, Bool.or_false]; rfl

/-- Settles O55: each row of the two tables executes the action of its count. -/
theorem thresholdActions : Obligations.ThresholdActions := fun s =>
  ⟨rfl, rfl, rfl, rfl, rfl, rfl, rfl, rfl, congrArg _ (raiseVsync_eq s), rfl, rfl⟩

end Sys2Proof.Machine
end

section
/-! A step of a run (R4, R7), and reset as the place where every invariant holds. -/

namespace Sys2Proof.Machine

/-- A step whose selector names no operation (log 10, 13). -/
theorem step_of_reject {s : State} {w : Selector} {rest : List Selector} {e : DecodeError} (ht : s.trace = w :: rest)
    (hd : decode w = .reject e) : step s = .refused (.noSuchOperation e) := by
  unfold step; rw [ht]; simp only [hd]

/-- Settles O5: the three answers of the decoder and of an empty trace. -/
theorem stepRunsTheDecodedOperation : Obligations.StepRunsTheDecodedOperation := by
  refine ⟨fun s w rest ht => ⟨fun i => step_of_trace ht, fun e => step_of_reject ht⟩, fun s ht => ?_⟩
  unfold step; rw [ht]

theorem statusInv_reset : StatusInv State.reset := ⟨rfl, fun h => absurd h Bool.false_ne_true⟩

theorem pictureInv_reset : PictureInv State.reset := ⟨List.forall_mem_nil _, List.forall_mem_nil _⟩

/-- Settles O7: invariant by invariant. -/
theorem resetSatisfiesTheInvariants : Obligations.ResetSatisfiesTheInvariants :=
  ⟨timingInv_reset, List.forall_mem_nil _, reset_memWf, statusInv_reset, pictureInv_reset, rfl, rfl⟩

end Sys2Proof.Machine
end

section
/-! Many ticks in numbers (R224 to R246): the counters, and how the passages of the ends of lines 239 and 242 add up over lines of
cycles. -/

namespace Sys2Proof.Machine

/-- The counters after `n` ticks (R45 (d)). -/
theorem ticks_counts {s : State} (h : EngineInv s) (n : Nat) :
    (ticks n s).tim.hcount = (432 * s.tim.vcount + s.tim.hcount + n) % 432 ∧
      (ticks n s).tim.vcount = (432 * s.tim.vcount + s.tim.hcount + n) / 432 % 262 := by
  obtain ⟨hv, hh⟩ := (engineInv_ticks h n).counts
  rw [hh, hv, ticks_position h]
  simp only [State.position, frameTicks, Config.hTotal, Config.vTotal]
  omega

/-- Settles O21: `n` ticks are `n` places in the frame; a tick by its equation. -/
theorem ticksMoveTheCounters : Obligations.TicksMoveTheCounters := by
  refine ⟨fun s n h => ticks_counts h n, fun s w h hw hh => ?_⟩
  rw [tick_tim, hw, hh, ← s.ntWidth_eq, ← s.ntHeight_eq]
  exact ⟨rfl, rfl, rfl, rfl⟩

/-! ### Lines of cycles -/

/-- A line is 96 cycles (R355): `M` lines of cycles are `432 * M` ticks of a caught-up engine. -/
theorem advance_lines {s : State} (h : s.caughtUp) (M : Nat) :
    advance (s.addCycles (96 * M)) = ticks (432 * M) (s.addCycles (96 * M)) := by
  have due : tickGoal (s.cpuCycles + 96 * M) - s.pixelClock = 432 * M := by
    rw [h]
    simp only [tickGoal, Config.clkNum, Config.clkDen]
    omega
  rw [advance, addCycles_cpuCycles, addCycles_pixelClock, due]

/-- How often `M` lines of ticks come to the start of line `l`, counted in lines. -/
theorem arrivals_lines {s : State} (h : EngineInv s) {l : Nat} (hl : l < 262) (M : Nat) :
    arrivals l s.position (432 * M) = (s.tim.vcount + M + (262 - l)) / 262 - (s.tim.vcount + (262 - l)) / 262 := by
  have hcount := h.hcount_lt
  simp only [arrivals, State.position, frameTicks, Config.hTotal, Config.vTotal] at *
  omega

/-- What `M` lines of cycles leave in the counters, the frames, the flag and the request (R240, R246). -/
structure LinesPassed (M : Nat) (s t : State) : Prop where
  hcount : t.tim.hcount = s.tim.hcount
  vcount : t.tim.vcount = (s.tim.vcount + M) % 262
  frames : t.framesOut.length = s.framesOut.length + ((s.tim.vcount + M + 22) / 262 - (s.tim.vcount + 22) / 262)
  flag : t.video.vsta.getLsbD 0 = true ↔
    s.video.vsta.getLsbD 0 = true ∨ (s.tim.vcount + 19) / 262 < (s.tim.vcount + M + 19) / 262
  request : t.irq = true ↔
    s.irq = true ∨ s.video.vena.getLsbD 0 = true ∧ (s.tim.vcount + 19) / 262 < (s.tim.vcount + M + 19) / 262

theorem linesPassed_ticks {s : State} (h : EngineInv s) (M : Nat) : LinesPassed M s (ticks (432 * M) s) := by
  have hlt := h.hcount_lt
  rw [Config.hTotal] at hlt
  obtain ⟨hh, hv⟩ := ticks_counts h (432 * M)
  have passed : 0 < arrivals 243 s.position (432 * M) ↔ (s.tim.vcount + 19) / 262 < (s.tim.vcount + M + 19) / 262 := by
    rw [arrivals_lines h (by decide)]; omega
  exact
    { hcount := by rw [hh]; omega
      vcount := by rw [hv]; omega
      frames := by rw [length_framesOut_ticks h, arrivals_lines h (by decide)]
      flag := by rw [flag_ticks h, passed]
      request := by rw [irq_ticks h, passed] }

theorem linesPassed_advance {s : State} (h : TimingInv s) (hc : s.caughtUp) (M : Nat) :
    LinesPassed M s (advance (s.addCycles (96 * M))) := by
  have passed := linesPassed_ticks (timingInv_addCycles h (96 * M)).toEngineInv M
  rw [← advance_lines hc] at passed
  exact { passed with }

/-- Settles O23: the lines passed, from any place in a line; and from reset, where both sums start at 0. -/
theorem frameCadence : Obligations.FrameCadence := by
  refine ⟨fun M => ?_, fun s t M h hc ht => ?_⟩
  · obtain ⟨-, -, frames, flag, -⟩ := linesPassed_advance timingInv_reset caughtUp_reset M
    refine ⟨by rw [frames]; simp [State.reset], flag.trans ?_⟩
    simp [State.reset]
  · subst ht
    obtain ⟨hcount, vcount, frames, flag, request⟩ := linesPassed_advance h hc M
    exact ⟨hcount, vcount, frames, flag, request⟩

end Sys2Proof.Machine
end

section
/-! One tick of the pixel pipeline (R260 to R284): the latches in numbers, the pixel it draws, and what it keeps: the empty low bits of the
shift register, and the margin of the framebuffer. -/

namespace Sys2Proof.Machine

/-! ### The pipeline latches -/

/-- The latches after the fetch of a phase: one even slot, one latch, while the port is the scheduler's (R260 to R267). -/
theorem fetch_pipe (p : BitVec 3) (s : State) : (fetch p s).pipe =
    { s.pipe with
      name := if s.vramBusy = true ∧ p = 0 then s.vramRead s.ntAddr else s.pipe.name
      attrF := if s.vramBusy = true ∧ p = 2 then s.vramRead (s.ntAddr + 1) else s.pipe.attrF
      gfx0 := if s.vramBusy = true ∧ p = 4 then s.vramRead (s.gfxAddr 0) else s.pipe.gfx0
      gfx1 := if s.vramBusy = true ∧ p = 6 then s.vramRead (s.gfxAddr 1) else s.pipe.gfx1 } := by
  have slots : fetch p s =
      if p = 0 then fetchName s else if p = 2 then fetchAttr s else if p = 4 then fetchGfx0 s else if p = 6 then fetchGfx1 s else s := by
    rcases subTilePhase_cases p with rfl | rfl | rfl | rfl | rfl | rfl | rfl | rfl <;> rfl
  rw [slots]
  cases hb : s.vramBusy with
  | false => simp [fetchName, fetchAttr, fetchGfx0, fetchGfx1, hb]
  | true =>
    simp only [fetchName, fetchAttr, fetchGfx0, fetchGfx1, hb]
    split_ifs <;> simp_all

section Latches
variable {s : State} (h : s.tim.hcount ≠ 415)
include h

/-- A tick that does not open the early window leaves the latches of its pixel stage (R222). -/
theorem tick_pipe_of_ne : (tick s).pipe = (latchPixel s.tim.hsub (shiftLoad s.tim.hsub (fetch s.tim.hsub s))).pipe := by
  rw [tick_pipe, if_neg h]

/-- The fetched bytes are those of the slot of the phase. -/
theorem tick_fetched :
    (tick s).pipe.name = (fetch s.tim.hsub s).pipe.name ∧ (tick s).pipe.attrF = (fetch s.tim.hsub s).pipe.attrF ∧
      (tick s).pipe.gfx0 = (fetch s.tim.hsub s).pipe.gfx0 ∧ (tick s).pipe.gfx1 = (fetch s.tim.hsub s).pipe.gfx1 := by
  rw [tick_pipe_of_ne h, latchPixel_eq, shiftLoad_eq_setPipe_ofNat]
  exact ⟨rfl, rfl, rfl, rfl⟩

/-- The active byte is taken at phase 0, in which none is fetched (R277). -/
theorem tick_attrA : (tick s).pipe.attrA = if s.tim.hsub = 0 then s.pipe.attrF else s.pipe.attrA := by
  rw [tick_pipe_of_ne h, latchPixel_eq, shiftLoad_eq_setPipe_ofNat]
  simp only [State.setPipe_pipe, fetch_pipe]
  split_ifs <;> simp_all

/-- The register is shifted, and at phases 4 and 0 takes a byte: at phase 4 the one just fetched (R275 to R277). -/
theorem tick_sr : (tick s).pipe.sr = BitVec.ofNat 16
    (if s.tim.hsub = 4 then s.pipe.sr.toNat * 4 % 65536 / 256 * 256 + (tick s).pipe.gfx0.toNat
    else if s.tim.hsub = 0 then s.pipe.sr.toNat * 4 % 65536 / 256 * 256 + s.pipe.gfx1.toNat else s.pipe.sr.toNat * 4 % 65536) := by
  rw [(tick_fetched h).2.2.1, tick_pipe_of_ne h, latchPixel_eq, shiftLoad_eq_setPipe_ofNat]
  simp only [State.setPipe_pipe, fetch_pipe]
  split_ifs <;> simp_all

/-- The pixel is taken from the register as the tick leaves it (R278, R279). -/
theorem tick_pix : (tick s).pipe.pix =
    if s.video.vctl.getLsbD 6 then
      if s.tim.hsub.toNat % 2 = 0 then BitVec.ofNat 4 ((tick s).pipe.sr.toNat / 4096) else s.pipe.pix
    else BitVec.ofNat 4 ((tick s).pipe.sr.toNat / 16384) := by
  have bpp4 : (shiftLoad s.tim.hsub (fetch s.tim.hsub s)).bpp4 = s.video.vctl.getLsbD 6 := by
    rw [State.bpp4, shiftLoad_video, fetch_video]
  have pix : (shiftLoad s.tim.hsub (fetch s.tim.hsub s)).pipe.pix = s.pipe.pix := by
    rw [shiftLoad_eq_setPipe_ofNat, State.setPipe_pipe, fetch_pipe]
  rw [tick_pipe_of_ne h, latchPixel_eq, State.setPipe_pipe, bpp4, pix]

end Latches

/-- Settles O59: the fetched bytes at the two addresses in numbers, then the register, the active byte and the pixel. -/
theorem tickMovesThePipeline : Obligations.TickMovesThePipeline := by
  intro s nt gfx hcount hnt hgfx
  have hnt : s.ntAddr = nt := s.ntAddr_eq.trans hnt.symm
  have hgfx (k : BitVec 1) : s.gfxAddr k = gfx + k.toNat := by rw [s.gfxAddr_eq, s.tileHi_toNat, hgfx]
  obtain ⟨name, attrF, gfx0, gfx1⟩ := tick_fetched hcount
  refine ⟨?_, ?_, ?_, ?_, tick_attrA hcount, tick_sr hcount, tick_pix hcount⟩
  · rw [name, fetch_pipe, s.vramRead_of_lt s.ntAddr_lt, hnt]
  · rw [attrF, fetch_pipe, hnt]; rfl
  · rw [gfx0, fetch_pipe, s.vramRead_of_lt (s.gfxAddr_lt 0), hgfx 0]; rfl
  · rw [gfx1, fetch_pipe, s.vramRead_of_lt (s.gfxAddr_lt 1), hgfx 1]; rfl

/-! ### The shift register -/

/-- The shift of the next load finds the low byte empty (R276, R277). -/
theorem ShiftInv.low_byte_empty {s : State} (h : ShiftInv s) (hload : s.tim.hsub = 4 ∨ s.tim.hsub = 0) :
    (shiftPixels s).pipe.sr.toNat % 256 = 0 := by
  have low : s.pipe.sr.toNat % 64 = 0 := by
    rcases hload with e | e <;> rw [ShiftInv, e] at h <;> exact h
  have shifted : (shiftPixels s).pipe.sr.toNat = s.pipe.sr.toNat * 4 % 65536 := toNat_shiftLeft_two s.pipe.sr
  omega

/-- The next phase, also at the end of a line: a line is a whole number of tiles (R234). -/
theorem EngineInv.tick_hsub {s : State} (h : EngineInv s) : (tick s).tim.hsub = s.tim.hsub + 1 := by
  have next : (tick s).tim.hsub = if s.tim.hcount = 431 then 0 else s.tim.hsub + 1 := by rw [tick_tim]
  rw [next]
  split_ifs with hend
  · have last := h.hsub
    rw [hend] at last
    rw [BitVec.eq_of_toNat_eq (y := 7) last]; rfl
  · rfl

/-- A tick shifts two more empty bits in, or loads a byte (R275 to R277). -/
theorem shiftInv_tick {s : State} (h : EngineInv s) (hs : ShiftInv s) : ShiftInv (tick s) := by
  by_cases hearly : s.tim.hcount = 415
  · rw [ShiftInv, tick_pipe, if_pos hearly]
    exact Nat.zero_mod _
  · rw [ShiftInv, h.tick_hsub, tick_sr hearly]
    unfold ShiftInv at hs
    rcases subTilePhase_cases s.tim.hsub with e | e | e | e | e | e | e | e
    all_goals
      rw [e] at hs ⊢
      simp at hs ⊢
    all_goals omega

/-- Settles O13: every tick of every event keeps the empty bits, as long as the phase follows the horizontal count. -/
theorem loadsDestroyNoPixels : Obligations.LoadsDestroyNoPixels := by
  refine ⟨fun s t h he hs hstep => ?_, fun s => ShiftInv.low_byte_empty⟩
  have engine : EngineProp fun s => EngineInv s ∧ ShiftInv s := fun s u htim hpipe hraster _ ⟨hi, hz⟩ =>
    ⟨engineInv_of_eq hi htim hraster, by rw [ShiftInv, htim, hpipe]; exact hz⟩
  exact (keeps_step engine (fun s hk => ⟨engineInv_tick hk.1, shiftInv_tick hk.1 hk.2⟩) he ⟨h.toEngineInv, hs⟩ hstep).2

end Sys2Proof.Machine
end

section
/-! The pixels a tick draws (R283, R284, R286): one in the visible rectangle, none elsewhere, and the left edge of line 0 (R343). -/

namespace Sys2Proof.Machine

/-! ### The pixel of a tick -/

/-- The pipeline as the pixel of a tick is taken from it (R222). -/
def drawnStage (s : State) : State := latchPixel s.tim.hsub (shiftLoad s.tim.hsub (fetch s.tim.hsub s))

theorem pixelStage_eq_drawPixel (s : State) : pixelStage s = drawPixel (drawnStage s) := rfl

@[simp] theorem drawnStage_tim (s : State) : (drawnStage s).tim = s.tim := by simp [drawnStage]
@[simp] theorem drawnStage_raster (s : State) : (drawnStage s).raster = s.raster := by simp [drawnStage]

/-- The colour is that of the palette entry the latches select (R280, R281). -/
theorem drawnStage_pixelColour (s : State) :
    (drawnStage s).pixelColour = decodeColour (s.peek .pal (drawnStage s).palIndex.toNat) := by
  have hmem : (drawnStage s).mem = s.mem := by simp [drawnStage]
  rw [State.pixelColour, State.palRead, pala_mod_palSize, State.peek, State.peek, hmem]

/-- The borders are down in the visible rectangle only (R228, R238). -/
theorem EngineInv.borders_iff {s : State} (h : EngineInv s) :
    s.tim.hborder = false ∧ s.tim.vborder = false ↔ s.tim.hcount < 320 ∧ s.tim.vcount < 240 := by
  rw [Bool.eq_false_iff, Bool.eq_false_iff, Ne, Ne, h.hborder, h.vborder, Nat.not_le, Nat.not_le, Config.hVisEnd, Config.vVisEnd]

/-- The framebuffer after a tick: one pixel at a visible place of the frame (R283, R284). -/
theorem EngineInv.tick_fb {s : State} (h : EngineInv s) : (tick s).raster.fb =
    if s.tim.hcount < 320 ∧ s.tim.vcount < 240 then
      fbWrite s.raster.fb (24 + s.tim.vcount) (32 + s.tim.hcount) (drawnStage s).pixelColour
    else s.raster.fb := by
  rw [tick_raster, pixelStage_eq_drawPixel, drawPixel_fb, drawnStage_tim, drawnStage_raster]
  by_cases visible : s.tim.hcount < 320 ∧ s.tim.vcount < 240
  · have row : s.raster.row = 24 + s.tim.vcount := by rw [h.row, Config.fbY0, Config.fbH]; omega
    have col : s.raster.col = 32 + s.tim.hcount := by
      rw [h.col, Config.fbX0, Config.vVisEnd, Config.hEarly, Config.hVisEnd, if_pos (by omega)]; omega
    rw [row, col, if_pos ⟨h.borders_iff.mpr visible, by rw [Config.fbH]; omega, by rw [Config.fbW]; omega⟩, if_pos visible]
  · rw [if_neg fun drawn => visible (h.borders_iff.mp drawn.1), if_neg visible]

/-- The places of a framebuffer are told apart by row and column (R17). -/
theorem fbKey_inj {row col row' col' : Nat} (hcol : col < 384) (hcol' : col' < 384) :
    fbKey row col = fbKey row' col' ↔ row = row' ∧ col = col' := by
  simp only [fbKey, Config.fbW]
  omega

/-- Settles O52: the cursors stand at the place of the visible tick, whose pixel alone is written. -/
theorem visibleTicksDrawOnePixel : Obligations.VisibleTicksDrawOnePixel := by
  intro s h form
  refine ⟨fun visible row col _ hcol => ?_, fun hidden => by rw [h.tick_fb, if_neg hidden]⟩
  rw [h.tick_fb, if_pos visible, fbRead_fbWrite form, drawnStage_pixelColour]
  exact if_congr (fbKey_inj hcol (by omega)) rfl rfl

/-! ### The margin -/

/-- A pixel of the visible rectangle is none of the margin (R284). -/
theorem marginUntouched_fbWrite {f : Frame} (h : MarginUntouched f) {x y : Nat} (hx : x < 320) (hy : y < 240) (c : Pixel) :
    MarginUntouched (fbWrite f (24 + y) (32 + x) c) := by
  unfold fbWrite
  split_ifs with hc
  · exact fun d hd => h d (mem_cellErase hd)
  · intro d hd
    rcases mem_cellPut hd with rfl | hd
    · simp only [fbKey, Config.fbW, Config.fbY0, Config.fbX0, Config.vVisEnd, Config.hVisEnd]
      omega
    · exact h d hd

/-- A tick keeps the margin, also that of the frame it hands out (R286). -/
theorem pictureInv_tick {s : State} (h : EngineInv s) (hp : PictureInv s) : PictureInv (tick s) := by
  obtain ⟨margin, frames⟩ := hp
  have drawn : MarginUntouched (tick s).raster.fb := by
    rw [h.tick_fb]
    split_ifs with visible
    · exact marginUntouched_fbWrite margin visible.1 visible.2 _
    · exact margin
  refine ⟨drawn, ?_⟩
  rw [tick_framesOut]
  split_ifs with last
  · intro f hf
    rcases List.mem_append.mp hf with hf | hf
    · exact frames f hf
    · exact List.mem_singleton.mp hf ▸ drawn
  · exact frames

/-- Settles O12: every tick of every event keeps the margin, as long as the cursors follow the counters. -/
theorem stepKeepsTheMargin : Obligations.StepKeepsTheMargin := by
  intro s t h he hp hstep
  have engine : EngineProp fun s => EngineInv s ∧ PictureInv s := fun s u htim _ hraster hframes ⟨hi, hm⟩ =>
    ⟨engineInv_of_eq hi htim hraster, by rw [PictureInv, hraster, hframes]; exact hm⟩
  exact (keeps_step engine (fun s hk => ⟨engineInv_tick hk.1, pictureInv_tick hk.1 hk.2⟩) he ⟨h.toEngineInv, hp⟩ hstep).2

/-! ### The left edge of line 0 -/

/-- The latches as the early window leaves them (R232). -/
def emptyPipe : Pipeline := { name := 0, attrF := 0, attrA := 0, gfx0 := 0, gfx1 := 0, sr := 0, pix := 0 }

/-- Nothing is fetched below the picture, so empty latches stay empty to the end of the line (R261, R343). -/
theorem EngineInv.tick_pipe_empty {s : State} (h : EngineInv s) (hv : 240 ≤ s.tim.vcount)
    (hp : s.tim.hcount = 415 ∨ s.pipe = emptyPipe) :
    (tick s).pipe = emptyPipe := by
  by_cases hearly : s.tim.hcount = 415
  · rw [tick_pipe, if_pos hearly]; rfl
  · have idle : s.vramBusy = false := by
      rw [Bool.eq_false_iff, Ne, h.vramBusy_iff, ← h.counts.1, Config.vVisEnd]; omega
    rw [tick_pipe_of_ne hearly, latchPixel_eq, shiftLoad_eq_setPipe_ofNat]
    simp [fetch_pipe, idle, hp.resolve_left hearly, emptyPipe]

/-- The latches are empty through the early window of line 261. -/
theorem ticks_pipe_empty {s : State} (h : EngineInv s) (hv : s.tim.vcount = 261) (hh : s.tim.hcount = 415) {n : Nat} (hn : n < 17) :
    (ticks (n + 1) s).pipe = emptyPipe := by
  have stands (m : Nat) (hm : m < 17) : (ticks m s).tim.vcount = 261 ∧ (ticks m s).tim.hcount = 415 + m := by
    obtain ⟨counth, countv⟩ := ticks_counts h m
    omega
  induction n with
  | zero => rw [ticks_succ]; exact h.tick_pipe_empty (by omega) (.inl hh)
  | succ n ih =>
    rw [ticks_succ]
    exact (engineInv_ticks h _).tick_pipe_empty (by rw [(stands _ hn).1]; omega) (.inr (ih (by omega)))

/-- Before pixel `j` of line 0, for the first 8: what has come into the register since it was empty has not reached its top bits. -/
structure LeftEdge (colour : Byte) (j : Nat) (s : State) : Prop where
  engine : EngineInv s
  form : s.memWf
  vcount : s.tim.vcount = 0
  hcount : s.tim.hcount = j
  attrA : s.pipe.attrA = 0
  pix : s.pipe.pix = 0
  attrF : j = 0 → s.pipe.attrF = 0
  gfx1 : j = 0 → s.pipe.gfx1 = 0
  sr : s.pipe.sr.toNat < 4 ^ (j - 1)
  entry : s.peek .pal 0 = colour
  drawn : ∀ i < j, fbRead s.raster.fb 24 (32 + i) = decodeColour colour

/-- Empty latches select entry 0, in every mode (R280). -/
theorem palIndex_of_empty {s : State} (hattr : s.pipe.attrA = 0) (hpix : s.pipe.pix = 0) : s.palIndex.toNat = 0 := by
  rw [s.palIndex_toNat, hattr, hpix]
  simp

section Step
variable {colour : Byte} {j : Nat} {s : State} (h : LeftEdge colour j s) (hj : j < 8)
include h hj

/-- The phases of a tile are its columns. -/
theorem LeftEdge.hsub_eq_iff {k : Nat} (hk : k < 8) : s.tim.hsub = BitVec.ofNat 3 k ↔ j = k := by
  have phase : s.tim.hsub.toNat = j := by rw [h.engine.hsub, h.hcount, Nat.mod_eq_of_lt hj]
  rw [BitVec.toNat_inj.symm, phase, BitVec.toNat_ofNat, Nat.mod_eq_of_lt hk]

theorem LeftEdge.hcount_ne : s.tim.hcount ≠ 415 := by rw [h.hcount]; omega

/-- The byte loaded at phase 4 comes into an empty register, and three shifts do not bring it to the top (R275 to R277). -/
theorem LeftEdge.tick_sr_lt : (tick s).pipe.sr.toNat < 4 ^ j := by
  have byte := (tick s).pipe.gfx0.isLt
  have low := h.sr
  rw [tick_sr (h.hcount_ne hj), BitVec.toNat_ofNat]
  split_ifs with four zero
  · obtain rfl := (h.hsub_eq_iff hj (by decide)).mp four
    have empty : s.pipe.sr.toNat < 64 := low
    change _ < 256
    omega
  · obtain rfl := (h.hsub_eq_iff hj (by decide)).mp zero
    have none : s.pipe.gfx1.toNat = 0 := by rw [h.gfx1 rfl]; rfl
    have empty : s.pipe.sr.toNat < 1 := low
    change _ < 1
    omega
  · have : j ≠ 0 := fun e => zero ((h.hsub_eq_iff hj (by decide)).mpr e)
    obtain ⟨k, rfl⟩ := Nat.exists_eq_succ_of_ne_zero this
    rw [Nat.pow_succ]
    rw [Nat.succ_sub_one] at low
    omega

/-- So the latch takes an empty pixel, at either depth (R278, R279). -/
theorem LeftEdge.tick_pix : (tick s).pipe.pix = 0 := by
  have low := h.tick_sr_lt hj
  have phase : s.tim.hsub.toNat = j := by rw [h.engine.hsub, h.hcount, Nat.mod_eq_of_lt hj]
  rw [Machine.tick_pix (h.hcount_ne hj), phase]
  split_ifs with bpp4 even
  · have : 4 ^ j ≤ 4 ^ 6 := Nat.pow_le_pow_right (by decide) (by omega)
    rw [Nat.div_eq_of_lt (by omega)]; rfl
  · exact h.pix
  · have : 4 ^ j ≤ 4 ^ 7 := Nat.pow_le_pow_right (by decide) (by omega)
    rw [Nat.div_eq_of_lt (by omega)]; rfl

theorem LeftEdge.tick_attrA : (tick s).pipe.attrA = 0 := by
  rw [Machine.tick_attrA (h.hcount_ne hj)]
  split_ifs with zero
  · exact h.attrF ((h.hsub_eq_iff hj (by decide)).mp zero)
  · exact h.attrA

/-- The pixel of the tick is of the colour of entry 0. -/
theorem LeftEdge.tick_colour : (drawnStage s).pixelColour = decodeColour colour := by
  have hpipe : (drawnStage s).pipe = (tick s).pipe := (tick_pipe_of_ne (h.hcount_ne hj)).symm
  rw [drawnStage_pixelColour, palIndex_of_empty (by rw [hpipe]; exact h.tick_attrA hj) (by rw [hpipe]; exact h.tick_pix hj), h.entry]

theorem LeftEdge.succ : LeftEdge colour (j + 1) (countedTick s) where
  engine := engineInv_countedTick h.engine
  form := memWf_of_eq (memWf_tick h.form) rfl rfl rfl
  vcount := by rw [countedTick_tim, tick_tim]; simp [h.vcount, h.hcount]; omega
  hcount := by rw [countedTick_tim, tick_tim]; simp [h.hcount]; omega
  attrA := h.tick_attrA hj
  pix := h.tick_pix hj
  attrF := fun e => nomatch e
  gfx1 := fun e => nomatch e
  sr := h.tick_sr_lt hj
  entry := by rw [State.peek, (engineFrame_countedTick s).mem]; exact h.entry
  drawn := fun i hi => by
    rw [countedTick_raster, h.engine.tick_fb, if_pos (by rw [h.hcount, h.vcount]; omega), fbRead_fbWrite h.form.2.1, h.tick_colour hj,
      h.hcount, h.vcount]
    split_ifs with place
    · rfl
    · refine h.drawn i (Nat.lt_of_le_of_ne (Nat.le_of_lt_succ hi) fun e => place ?_)
      rw [e]

end Step

theorem leftEdge_ticks {colour : Byte} {s : State} (h : LeftEdge colour 0 s) {n : Nat} (hn : n ≤ 8) : LeftEdge colour n (ticks n s) := by
  induction n with
  | zero => exact h
  | succ n ih => rw [ticks_succ]; exact (ih (Nat.le_of_lt hn)).succ hn

/-- Settles O53: the early window of line 261 leaves the latches empty, and 8 ticks bring nothing to the top of the register. -/
theorem lineZeroLeftEdge : Obligations.LineZeroLeftEdge := by
  intro s h form hv hh
  obtain ⟨hcount, vcount⟩ := ticks_counts h 17
  rw [hv, hh] at hcount vcount
  have empty : (ticks 17 s).pipe = emptyPipe := ticks_pipe_empty h hv hh (by decide)
  have start : LeftEdge (s.peek .pal 0) 0 (ticks 17 s) :=
    { engine := engineInv_ticks h 17
      form := memWf_ticks form 17
      vcount := vcount
      hcount := hcount
      attrA := by rw [empty]; rfl
      pix := by rw [empty]; rfl
      attrF := fun _ => by rw [empty]; rfl
      gfx1 := fun _ => by rw [empty]; rfl
      sr := by rw [empty]; decide
      entry := by rw [State.peek, (engineFrame_ticks 17 s).mem]; rfl
      drawn := fun i hi => nomatch hi }
  refine ⟨vcount, hcount, fun j hj => ?_⟩
  rw [ticks_add 17 8]
  exact (leftEdge_ticks start (Nat.le_refl 8)).drawn j hj

end Sys2Proof.Machine
end

section
/-! What a step keeps, once for every operation: the form of the memories, the status, and each memory and register but for the
operations that write it. Each part of an operation is a `StepFrame`, and so is a chain of them. -/

namespace Sys2Proof.Machine

open Sys2Proof.Config (Region)

/-! ### The writers of a memory and of a register -/

/-- The operations of the DMA engine: a run, or a step asked for by itself. -/
def DmaWriter (w : Selector) : Prop := (∃ v, w = .wr 0x00D5 v) ∨ ∃ b i, w = .dctl b i

/-- The operations that may write a memory (R13 to R17). -/
def MemoryWriter (w : Selector) : Region → Prop
  | .rom => False
  | .vram => DmaWriter w
  | .pal => (∃ v, w = .wr 0x00CB v) ∨ DmaWriter w
  | .spr => (∃ v, w = .wr 0x00CD v) ∨ DmaWriter w
  | .ram0 | .ram1 | .cart => (∃ a v, w = .wr a v ∧ ¬(0x00C0 ≤ a.toNat ∧ a.toNat ≤ 0x00FF)) ∨ DmaWriter w

theorem DmaWriter.memoryWriter {w : Selector} (h : DmaWriter w) {r : Region} (hr : r ≠ .rom) : MemoryWriter w r := by
  cases r with
  | rom => exact absurd rfl hr
  | vram => exact h
  | pal | spr | ram0 | ram1 | cart => exact .inr h

/-- A register of `t` differs from `s`'s only by an operation that its row of the summary table names (R177). -/
structure RegistersWritten (w : Selector) (s t : State) : Prop where
  vctl : t.video.vctl ≠ s.video.vctl → ∃ v, w = .wr 0x00C0 v
  vena : t.video.vena ≠ s.video.vena → ∃ v, w = .wr 0x00C1 v
  scrh : t.video.scrh ≠ s.video.scrh → ∃ v, w = .wr 0x00C4 v
  scrhf : t.video.scrhf ≠ s.video.scrhf → ∃ v, w = .wr 0x00C5 v
  scrv : t.video.scrv ≠ s.video.scrv → ∃ v, w = .wr 0x00C6 v
  scrvf : t.video.scrvf ≠ s.video.scrvf → ∃ v, w = .wr 0x00C7 v
  ntsize : t.video.ntsize ≠ s.video.ntsize → ∃ v, w = .wr 0x00C8 v
  ntbase : t.video.ntbase ≠ s.video.ntbase → ∃ v, w = .wr 0x00C9 v
  pala : t.video.pala ≠ s.video.pala → w = .rd 0x00CB ∨ ∃ v, w = .wr 0x00CA v ∨ w = .wr 0x00CB v
  spra : t.video.spra ≠ s.video.spra → w = .rd 0x00CD ∨ ∃ v, w = .wr 0x00CC v ∨ w = .wr 0x00CD v
  dctl : t.dma.dctl ≠ s.dma.dctl → ∃ v, w = .wr 0x00D4 v
  drun : t.dma.drun ≠ s.dma.drun → (∃ v, w = .wr 0x00D5 v) ∨ ∃ b i, w = .dctl b i
  dsrc : t.dma.dsrc ≠ s.dma.dsrc → (∃ v, w = .wr 0x00D0 v ∨ w = .wr 0x00D1 v ∨ w = .wr 0x00D5 v) ∨ ∃ b i, w = .dctl b i
  ddst : t.dma.ddst ≠ s.dma.ddst → (∃ v, w = .wr 0x00D2 v ∨ w = .wr 0x00D3 v ∨ w = .wr 0x00D5 v) ∨ ∃ b i, w = .dctl b i
  dfill : t.dma.dfill ≠ s.dma.dfill → (∃ v, w = .wr 0x00D8 v ∨ w = .wr 0x00D5 v) ∨ ∃ b i, w = .dctl b i
  dpage : t.dma.dpage ≠ s.dma.dpage → (∃ v, w = .wr 0x00D9 v ∨ w = .wr 0x00D5 v) ∨ ∃ b i, w = .dctl b i
  bank2 : t.sys.bank2 ≠ s.sys.bank2 → ∃ v, w = .wr 0x00DA v
  bank3 : t.sys.bank3 ≠ s.sys.bank3 → ∃ v, w = .wr 0x00DB v
  kcol : t.sys.kcol ≠ s.sys.kcol → ∃ v, w = .wr 0x00DC v

section Registers
variable {w : Selector} {s t u : State}

theorem RegistersWritten.refl (w : Selector) (s : State) : RegistersWritten w s s := by
  constructor <;> exact fun changed => absurd rfl changed

/-- What has changed on the whole has changed in one of two parts. -/
theorem changed_trans {α : Type} {x y z : α} {P : Prop} (h : y ≠ x → P) (k : z ≠ y → P) (changed : z ≠ x) : P := by
  by_cases e : y = x
  · exact k (e ▸ changed)
  · exact h e

theorem RegistersWritten.trans (h : RegistersWritten w s t) (k : RegistersWritten w t u) : RegistersWritten w s u where
  vctl := changed_trans h.vctl k.vctl
  vena := changed_trans h.vena k.vena
  scrh := changed_trans h.scrh k.scrh
  scrhf := changed_trans h.scrhf k.scrhf
  scrv := changed_trans h.scrv k.scrv
  scrvf := changed_trans h.scrvf k.scrvf
  ntsize := changed_trans h.ntsize k.ntsize
  ntbase := changed_trans h.ntbase k.ntbase
  pala := changed_trans h.pala k.pala
  spra := changed_trans h.spra k.spra
  dctl := changed_trans h.dctl k.dctl
  drun := changed_trans h.drun k.drun
  dsrc := changed_trans h.dsrc k.dsrc
  ddst := changed_trans h.ddst k.ddst
  dfill := changed_trans h.dfill k.dfill
  dpage := changed_trans h.dpage k.dpage
  bank2 := changed_trans h.bank2 k.bank2
  bank3 := changed_trans h.bank3 k.bank3
  kcol := changed_trans h.kcol k.kcol

/-- The status byte is no register of the table: the engine sets it. -/
theorem RegistersWritten.of_status (hv : t.video = { s.video with vsta := t.video.vsta }) (hd : t.dma = s.dma) (hy : t.sys = s.sys) :
    RegistersWritten w s t := by
  generalize t.video.vsta = x at hv
  constructor <;> simp [hv, hd, hy]

/-- The DMA engine may write all its registers but the control byte. -/
theorem DmaWriter.registersWritten (h : DmaWriter w) (hv : t.video = { s.video with vsta := t.video.vsta }) (hy : t.sys = s.sys)
    (hd : t.dma.dctl = s.dma.dctl) : RegistersWritten w s t :=
  have video : RegistersWritten w s (s.setVideo t.video) := .of_status hv rfl rfl
  { vctl := video.vctl, vena := video.vena, scrh := video.scrh, scrhf := video.scrhf, scrv := video.scrv, scrvf := video.scrvf
    ntsize := video.ntsize, ntbase := video.ntbase, pala := video.pala, spra := video.spra
    dctl := fun changed => absurd hd changed
    drun := fun _ => h
    dsrc := fun _ => h.imp_left fun ⟨v, e⟩ => ⟨v, .inr (.inr e)⟩
    ddst := fun _ => h.imp_left fun ⟨v, e⟩ => ⟨v, .inr (.inr e)⟩
    dfill := fun _ => h.imp_left fun ⟨v, e⟩ => ⟨v, .inr e⟩
    dpage := fun _ => h.imp_left fun ⟨v, e⟩ => ⟨v, .inr e⟩
    bank2 := fun changed => absurd (by rw [hy]) changed
    bank3 := fun changed => absurd (by rw [hy]) changed
    kcol := fun changed => absurd (by rw [hy]) changed }

end Registers

/-! ### The frame of a step -/

/-- What every operation `w`, and every part of it, keeps: the form (R14), the status (R83, R126), and what `w` does not write. -/
structure StepFrame (w : Selector) (s t : State) : Prop where
  form : s.memWf → t.memWf
  status : StatusInv s → StatusInv t
  memories : ∀ r, t.mem.get r ≠ s.mem.get r → MemoryWriter w r
  registers : RegistersWritten w s t

section Parts
variable {w : Selector} {s t u : State}

theorem StepFrame.refl (w : Selector) (s : State) : StepFrame w s s :=
  ⟨id, id, fun _ changed => absurd rfl changed, .refl w s⟩

theorem StepFrame.trans (h : StepFrame w s t) (k : StepFrame w t u) : StepFrame w s u :=
  ⟨k.form ∘ h.form, k.status ∘ h.status, fun r => changed_trans (h.memories r) (k.memories r), h.registers.trans k.registers⟩

/-- What the timing engine does, as far as it keeps the form. -/
theorem EngineFrame.stepFrame (h : EngineFrame s t) (hform : s.memWf → t.memWf) : StepFrame w s t where
  form := hform
  status := fun hs =>
    { flags := by
        rcases h.vsta with e | e <;> rw [e]
        · exact hs.flags
        · rw [BitVec.and_or_distrib_right, hs.flags]; rfl
      request := fun hi => by
        rcases h.irqFlag hi with hold | hflag
        · rcases h.vsta with e | e <;> rw [e]
          · exact hs.request hold
          · simp
        · exact hflag }
  memories := fun r changed => absurd (by rw [h.mem]) changed
  registers := .of_status h.video h.dma h.sys

/-- Neither a memory nor the status nor a picture is touched. -/
structure RegistersOnly (s t : State) : Prop where
  mem : t.mem = s.mem
  fb : t.raster.fb = s.raster.fb
  framesOut : t.framesOut = s.framesOut
  vsta : t.video.vsta = s.video.vsta
  irq : t.irq = s.irq

theorem RegistersOnly.stepFrame (h : RegistersOnly s t) (hregs : RegistersWritten w s t) : StepFrame w s t where
  form := fun hs => memWf_of_eq hs h.mem h.fb h.framesOut
  status := fun hs => ⟨by rw [h.vsta]; exact hs.flags, by rw [h.vsta, h.irq]; exact hs.request⟩
  memories := fun r changed => absurd (by rw [h.mem]) changed
  registers := hregs

/-- Only memories are touched, and those that `w` writes. -/
theorem stepFrame_of_setMem (he : t = s.setMem t.mem) (hform : s.memWf → t.memWf)
    (hmem : ∀ r, t.mem.get r ≠ s.mem.get r → MemoryWriter w r) : StepFrame w s t where
  form := hform
  status := fun hs => by rw [he]; exact ⟨hs.flags, hs.request⟩
  memories := hmem
  registers := by rw [he]; exact .of_status rfl rfl rfl

/-- One byte of a memory that `w` writes. -/
theorem stepFrame_poke {r : Region} (hr : MemoryWriter w r) {a : Nat} (ha : a < regionSize r) (v : Byte) :
    StepFrame w s (s.poke r a v) :=
  stepFrame_of_setMem rfl (fun hs => State.memWf_poke hs r ha v) fun q changed => by
    by_cases e : q = r
    · exact e ▸ hr
    · exact absurd (Memories.get_put_other _ _ e) changed

/-- An acknowledgement keeps a request only with its flag (R126). -/
theorem stepFrame_ackStatus (v : Byte) : StepFrame w s (ackStatus v s) := by
  rw [ackStatus_eq]
  refine ⟨fun hs => memWf_of_eq hs rfl rfl rfl, fun hs => ⟨?_, fun hi => ?_⟩, fun r changed => absurd rfl changed,
    .of_status rfl rfl rfl⟩
  · have flags := hs.flags
    change s.video.vsta &&& ~~~v &&& 0xFE = 0
    rw [BitVec.and_assoc, BitVec.and_comm (~~~v), ← BitVec.and_assoc, flags]
    exact BitVec.zero_and
  · exact (Bool.and_eq_true_iff.mp hi).2

theorem stepFrame_advance : StepFrame w s (advance s) := (engineFrame_advance s).stepFrame memWf_advance

/-- The clocks, the trace and the bytes returned have no part in it. -/
theorem stepFrame_addCycles (n : Nat) : StepFrame w s (s.addCycles n) :=
  RegistersOnly.stepFrame ⟨rfl, rfl, rfl, rfl, rfl⟩ (.of_status rfl rfl rfl)

theorem stepFrame_setTrace (l : List Selector) : StepFrame w s (s.setTrace l) :=
  RegistersOnly.stepFrame ⟨rfl, rfl, rfl, rfl, rfl⟩ (.of_status rfl rfl rfl)

theorem stepFrame_returned (v : Byte) : StepFrame w s (s.returned v) :=
  RegistersOnly.stepFrame ⟨rfl, rfl, rfl, rfl, rfl⟩ (.of_status rfl rfl rfl)

theorem stepFrame_cycle : StepFrame w s (cycle s) := (stepFrame_addCycles 1).trans stepFrame_advance

theorem stepFrame_iterate_cycle (n : Nat) : StepFrame w s (cycle^[n] s) := by
  induction n with
  | zero => exact .refl w s
  | succ n ih => rw [Function.iterate_succ_apply']; exact ih.trans stepFrame_cycle

end Parts

/-! ### The DMA engine -/

section Dma
variable {w : Selector} (hw : DmaWriter w)
include hw

theorem DmaWriter.stepFrame_setDma (s : State) {d : DmaRegs} (hd : d.dctl = s.dma.dctl) : StepFrame w s (s.setDma d) :=
  RegistersOnly.stepFrame ⟨rfl, rfl, rfl, rfl, rfl⟩ (hw.registersWritten rfl rfl hd)

/-- A store of the DMA engine is in no ROM. -/
theorem DmaWriter.stepFrame_dmaWrite (s : State) (vram : Bool) (a : Addr) (v : Byte) : StepFrame w s (s.dmaWrite vram a v) := by
  refine stepFrame_of_setMem (s.dmaWrite_eq_setMem vram a v) (fun hs => State.memWf_dmaWrite hs vram a v) fun r changed =>
    hw.memoryWriter fun e => changed ?_
  subst e
  rw [State.dmaWrite_eq]
  split
  · rename_i q x hcell
    refine Memories.get_put_other _ _ fun e => ?_
    subst e
    exact s.dmaCell_ne_rom vram a x hcell
  · rfl

theorem DmaWriter.stepFrame_sprWrite (s : State) (i : Nat) (v : Byte) : StepFrame w s (s.sprWrite i v) := by
  unfold State.sprWrite
  split
  · exact stepFrame_poke (hw.memoryWriter (by decide)) ‹_› v
  · exact .refl w s

theorem DmaWriter.stepFrame_palWrite (s : State) (i : Nat) (v : Byte) : StepFrame w s (s.palWrite i v) :=
  stepFrame_poke (hw.memoryWriter (by decide)) (Nat.mod_lt _ (by decide)) v

/-- The read phases load a latch. -/
theorem DmaWriter.stepFrame_read {f : DmaFlags} {rd : State → State} (h : rd = readSource f ∨ rd = readSystem ∨ rd = readIdle)
    (s : State) : StepFrame w s (rd s) := by
  rcases h with rfl | rfl | rfl
  · exact hw.stepFrame_setDma s rfl
  · exact hw.stepFrame_setDma s rfl
  · exact .refl w s

/-- The write phases store a byte, the direct-pixel one after loading a latch. -/
theorem DmaWriter.stepFrame_write {f : DmaFlags} {i : Nat} {wr : State → State}
    (h : wr = writeFill f ∨ wr = writeMasked f ∨ wr = writeApa f ∨ wr = writePal ∨ wr = writeSpr ∨ wr = writeSprclr ∨
      wr = writeAltfill f i)
    (s : State) : StepFrame w s (wr s) := by
  rcases h with rfl | rfl | rfl | rfl | rfl | rfl | rfl
  · exact hw.stepFrame_dmaWrite ..
  · unfold writeMasked
    split
    · exact .refl w s
    · exact hw.stepFrame_dmaWrite ..
  · have latched (b : Byte) : StepFrame w s (s.latchPage b) := hw.stepFrame_setDma s rfl
    exact (latched _).trans (hw.stepFrame_dmaWrite ..)
  · exact hw.stepFrame_palWrite ..
  · exact hw.stepFrame_sprWrite ..
  · exact hw.stepFrame_sprWrite ..
  · exact hw.stepFrame_dmaWrite ..

/-- A step is a wait, its two phases, each with its cycle, and the counters (R184 to R186). -/
theorem DmaWriter.stepFrame_dmaStepWith {p : StepPlan} {f : DmaFlags} {i : Nat} {rd wr : State → State} {s t : State}
    (hrd : ∀ u, StepFrame w u (rd u)) (hwr : ∀ u, StepFrame w u (wr u))
    (h : dmaStepWith Config.dmaInterlock p f i rd wr s = some t) : StepFrame w s t := by
  obtain ⟨k, rfl, -, -⟩ := dmaStepWith_eq_some h
  exact ((((stepFrame_iterate_cycle k).trans (hrd _)).trans stepFrame_cycle).trans (hwr _)).trans
    (stepFrame_cycle.trans (hw.stepFrame_setDma _ rfl))

theorem DmaWriter.stepFrame_dmaStep {i : Nat} {s t : State} (h : dmaStep Config.dmaInterlock i s = some t) : StepFrame w s t := by
  obtain ⟨rd, wr, he, hr, hwr⟩ := dmaStep_eq Config.dmaInterlock i s
  exact hw.stepFrame_dmaStepWith (hw.stepFrame_read hr) (hw.stepFrame_write hwr) (he.symm.trans h)

/-- A whole transfer (R160). -/
theorem DmaWriter.stepFrame_wrDrun {v : Byte} {s t : State} (h : exec (.wrDrun v) s = .next t) : StepFrame w s t := by
  obtain ⟨u, hu, rfl⟩ := wrDrun_next h
  have start : StepFrame w s ((advance s).setDma { s.dma with drun := v }) :=
    stepFrame_advance.trans (hw.stepFrame_setDma _ (by rw [advance_dma]))
  exact (dmaLoop_induction (P := StepFrame w s) (fun i a b ha hb => ha.trans (hw.stepFrame_dmaStep hb)) start hu).trans
    stepFrame_advance

/-- A step asked for by itself has the phases of its mode (R87, R187). -/
theorem DmaWriter.stepFrame_dmaInstr {m : DmaMode} {f : DmaFlags} {i : Nat} {s t : State} (h : exec (dmaInstr m f i) s = .next t) :
    StepFrame w s t := by
  have of_phases {rd wr : State → State} (hr : rd = readSource f ∨ rd = readSystem ∨ rd = readIdle)
      (hwr : wr = writeFill f ∨ wr = writeMasked f ∨ wr = writeApa f ∨ wr = writePal ∨ wr = writeSpr ∨ wr = writeSprclr ∨
        wr = writeAltfill f i)
      (h : ofStall (dmaStepWith Config.dmaInterlock (stepPlan m f) f i rd wr s) = .next t) : StepFrame w s t := by
    cases hstep : dmaStepWith Config.dmaInterlock (stepPlan m f) f i rd wr s with
    | none => rw [hstep] at h; cases h
    | some u =>
      rw [hstep] at h
      cases h
      exact hw.stepFrame_dmaStepWith (hw.stepFrame_read hr) (hw.stepFrame_write hwr) hstep
  cases m with
  | copy => exact of_phases (.inl rfl) (.inl rfl) h
  | fill => exact of_phases (.inr (.inr rfl)) (.inl rfl) h
  | masked => exact of_phases (.inl rfl) (.inr (.inl rfl)) h
  | apa => exact of_phases (.inl rfl) (.inr (.inr (.inl rfl))) h
  | pal => exact of_phases (.inr (.inl rfl)) (.inr (.inr (.inr (.inl rfl)))) h
  | spr => exact of_phases (.inr (.inl rfl)) (.inr (.inr (.inr (.inr (.inl rfl))))) h
  | sprclr => exact of_phases (.inr (.inr rfl)) (.inr (.inr (.inr (.inr (.inr (.inl rfl)))))) h
  | altfill => exact of_phases (.inr (.inr rfl)) (.inr (.inr (.inr (.inr (.inr (.inr rfl)))))) h

end Dma

/-! ### Bus accesses -/

section Bus
variable {w : Selector} {s t : State}

/-- A register read: the ticks due stand before it (R110). -/
theorem stepFrame_ioRead {u : State} {v : Byte} (h : StepFrame w (advance s) u) : StepFrame w s (u.returned v) :=
  (stepFrame_advance.trans h).trans (stepFrame_returned v)

/-- A register write: the ticks due stand before and after it (R111). -/
theorem stepFrame_ioWrite {u : State} (h : StepFrame w (advance s) u) : StepFrame w s (advance u) :=
  (stepFrame_advance.trans h).trans stepFrame_advance

theorem stepFrame_setVideo {x : VideoRegs} (hx : x.vsta = s.video.vsta) (hregs : RegistersWritten w s (s.setVideo x)) :
    StepFrame w s (s.setVideo x) :=
  RegistersOnly.stepFrame ⟨rfl, rfl, rfl, hx, rfl⟩ hregs

theorem stepFrame_setDma {d : DmaRegs} (hregs : RegistersWritten w s (s.setDma d)) : StepFrame w s (s.setDma d) :=
  RegistersOnly.stepFrame ⟨rfl, rfl, rfl, rfl, rfl⟩ hregs

theorem stepFrame_setSys {y : SysRegs} (hregs : RegistersWritten w s (s.setSys y)) : StepFrame w s (s.setSys y) :=
  RegistersOnly.stepFrame ⟨rfl, rfl, rfl, rfl, rfl⟩ hregs

/-- A read of the I/O window: the data ports move their address, no other read writes anything. -/
theorem stepFrame_decodeIoRead (r : Nat) (s : State) :
    ∃ t, exec (decodeIoRead r) s = .next t ∧ StepFrame (.rd (BitVec.ofNat 16 (192 + r))) s t := by
  unfold decodeIoRead
  split
  case h_12 => exact ⟨_, rfl, stepFrame_ioRead (stepFrame_setVideo rfl { RegistersWritten.refl _ _ with pala := fun _ => .inl rfl })⟩
  case h_14 => exact ⟨_, rfl, stepFrame_ioRead (stepFrame_setVideo rfl { RegistersWritten.refl _ _ with spra := fun _ => .inl rfl })⟩
  case h_27 => split_ifs <;> exact ⟨_, rfl, stepFrame_ioRead (.refl _ _)⟩
  all_goals exact ⟨_, rfl, stepFrame_ioRead (.refl _ _)⟩

/-- A wait for vertical blank is cycles and ticks (R127). -/
theorem stepFrame_wrVwait {v : Byte} (h : exec (.wrVwait v) s = .next t) : StepFrame w s t := by
  obtain ⟨k, -, rfl, -⟩ := wrVwait_next h
  exact stepFrame_ioWrite (stepFrame_iterate_cycle k)

/-- The byte of the palette port and that of the sprite port (R144, R148). -/
theorem stepFrame_palPort (v : Byte) {i : Nat} : StepFrame (.wr 0x00CB v) s (s.palWrite i v) :=
  stepFrame_poke (show MemoryWriter _ .pal from .inl ⟨v, rfl⟩) (Nat.mod_lt _ (by decide)) v

theorem stepFrame_sprPort (v : Byte) {i : Nat} : StepFrame (.wr 0x00CD v) s (s.sprWrite i v) := by
  unfold State.sprWrite
  split
  · exact stepFrame_poke (show MemoryWriter _ .spr from .inl ⟨v, rfl⟩) ‹_› v
  · exact .refl _ s

/-- A write of the I/O window stalls, at `VWAIT` or at `DRUN`, or it writes its register, its port or nothing. -/
theorem stepFrame_decodeIoWrite (r : Nat) (v : Byte) (s : State) :
    decodeIoWrite r v = .wrVwait v ∨ (r = 0x15 ∧ decodeIoWrite r v = .wrDrun v) ∨
      ∃ t, exec (decodeIoWrite r v) s = .next t ∧ StepFrame (.wr (BitVec.ofNat 16 (192 + r)) v) s t := by
  unfold decodeIoWrite
  split
  case h_4 => exact .inl rfl
  case h_20 => exact .inr (.inl ⟨rfl, rfl⟩)
  case h_27 => split_ifs <;> exact .inr (.inr ⟨_, rfl, stepFrame_ioWrite (.refl _ _)⟩)
  all_goals refine .inr (.inr ⟨_, rfl, stepFrame_ioWrite ?_⟩)
  case h_1 => exact stepFrame_setVideo rfl { RegistersWritten.refl _ _ with vctl := fun _ => ⟨v, rfl⟩ }
  case h_2 => exact stepFrame_setVideo rfl { RegistersWritten.refl _ _ with vena := fun _ => ⟨v, rfl⟩ }
  case h_3 => exact stepFrame_ackStatus v
  case h_5 => exact stepFrame_setVideo rfl { RegistersWritten.refl _ _ with scrh := fun _ => ⟨v, rfl⟩ }
  case h_6 => exact stepFrame_setVideo rfl { RegistersWritten.refl _ _ with scrhf := fun _ => ⟨v, rfl⟩ }
  case h_7 => exact stepFrame_setVideo rfl { RegistersWritten.refl _ _ with scrv := fun _ => ⟨v, rfl⟩ }
  case h_8 => exact stepFrame_setVideo rfl { RegistersWritten.refl _ _ with scrvf := fun _ => ⟨v, rfl⟩ }
  case h_9 => exact stepFrame_setVideo rfl { RegistersWritten.refl _ _ with ntsize := fun _ => ⟨v, rfl⟩ }
  case h_10 => exact stepFrame_setVideo rfl { RegistersWritten.refl _ _ with ntbase := fun _ => ⟨v, rfl⟩ }
  case h_11 => exact stepFrame_setVideo rfl { RegistersWritten.refl _ _ with pala := fun _ => .inr ⟨v, .inl rfl⟩ }
  case h_12 =>
    exact (stepFrame_palPort v).trans
      (stepFrame_setVideo rfl { RegistersWritten.refl _ _ with pala := fun _ => .inr ⟨v, .inr rfl⟩ })
  case h_13 => exact stepFrame_setVideo rfl { RegistersWritten.refl _ _ with spra := fun _ => .inr ⟨v, .inl rfl⟩ }
  case h_14 =>
    exact (stepFrame_sprPort v).trans
      (stepFrame_setVideo rfl { RegistersWritten.refl _ _ with spra := fun _ => .inr ⟨v, .inr rfl⟩ })
  case h_15 => exact stepFrame_setDma { RegistersWritten.refl _ _ with dsrc := fun _ => .inl ⟨v, .inl rfl⟩ }
  case h_16 => exact stepFrame_setDma { RegistersWritten.refl _ _ with dsrc := fun _ => .inl ⟨v, .inr (.inl rfl)⟩ }
  case h_17 => exact stepFrame_setDma { RegistersWritten.refl _ _ with ddst := fun _ => .inl ⟨v, .inl rfl⟩ }
  case h_18 => exact stepFrame_setDma { RegistersWritten.refl _ _ with ddst := fun _ => .inl ⟨v, .inr (.inl rfl)⟩ }
  case h_19 => exact stepFrame_setDma { RegistersWritten.refl _ _ with dctl := fun _ => ⟨v, rfl⟩ }
  case h_21 => exact stepFrame_setDma { RegistersWritten.refl _ _ with dfill := fun _ => .inl ⟨v, .inl rfl⟩ }
  case h_22 => exact stepFrame_setDma { RegistersWritten.refl _ _ with dpage := fun _ => .inl ⟨v, .inl rfl⟩ }
  case h_23 => exact stepFrame_setSys { RegistersWritten.refl _ _ with bank2 := fun _ => ⟨v, rfl⟩ }
  case h_24 => exact stepFrame_setSys { RegistersWritten.refl _ _ with bank3 := fun _ => ⟨v, rfl⟩ }
  case h_25 => exact stepFrame_setSys { RegistersWritten.refl _ _ with kcol := fun _ => ⟨v, rfl⟩ }
  case h_26 => exact .refl _ _

/-- A byte read in a bank window, and one written: of the bound memory, which is never the ROM (R57, R58). -/
theorem stepFrame_decodeRead {a : Addr} (h : exec (decodeRead a) s = .next t) : StepFrame (.rd a) s t := by
  cases hio : inIoWindow a with
  | true =>
    obtain ⟨r, hr, rfl⟩ := exists_offset_of_io hio
    obtain ⟨u, hu, frame⟩ := stepFrame_decodeIoRead r s
    rw [Decoded.instr.inj (decode_io_read hr), hu] at h
    cases h
    exact frame
  | false =>
    rw [decodeRead_of_not_io hio, exec_decodeBankRead] at h
    cases h
    exact stepFrame_returned _

/-- A writable window is bound to a memory of the system (R56). -/
theorem bind_writable {z : BitVec 2} {r : Region} (hr : (s.bind z).region = some r) (hw : (s.bind z).writable = true) :
    r = .ram0 ∨ r = .ram1 ∨ r = .cart := by
  revert hr hw
  unfold State.bind
  split
  · rintro ⟨⟩ -; exact .inl rfl
  · rintro ⟨⟩ -; exact .inr (.inl rfl)
  all_goals
    unfold bindSwitched
    split_ifs
    · rintro ⟨⟩ ⟨⟩
    · rintro ⟨⟩ -; exact .inr (.inr rfl)
    · rintro ⟨⟩

theorem stepFrame_bankWrite {a : Addr} (hio : inIoWindow a = false) (v : Byte) : StepFrame (.wr a v) s (s.bankWrite a v) := by
  have outside : ¬(0x00C0 ≤ a.toNat ∧ a.toNat ≤ 0x00FF) := by
    intro inside
    rw [inIoWindow] at hio
    simp [Config.ioBase, Config.ioSize] at hio
    omega
  rcases s.bankWrite_cases a v with ⟨r, hr, hw, e⟩ | ⟨-, e⟩ <;> rw [e]
  · refine stepFrame_poke ?_ (State.bankCell_lt _ hr) v
    rcases bind_writable hr hw with rfl | rfl | rfl
    all_goals exact Or.inl ⟨a, v, rfl, outside⟩
  · exact .refl _ s

theorem stepFrame_decodeWrite {a : Addr} {v : Byte} (h : exec (decodeWrite a v) s = .next t) : StepFrame (.wr a v) s t := by
  cases hio : inIoWindow a with
  | true =>
    obtain ⟨r, hr, rfl⟩ := exists_offset_of_io hio
    rw [Decoded.instr.inj (decode_io_write hr v)] at h
    rcases stepFrame_decodeIoWrite r v s with hwait | ⟨rfl, hrun⟩ | ⟨u, hu, frame⟩
    · rw [hwait] at h; exact stepFrame_wrVwait h
    · rw [hrun] at h; exact DmaWriter.stepFrame_wrDrun (.inl ⟨v, rfl⟩) h
    · rw [hu] at h; cases h; exact frame
  | false =>
    rw [decodeWrite_of_not_io v hio, exec_decodeBankWrite] at h
    cases h
    exact stepFrame_bankWrite hio v

end Bus

/-! ### The inside of the block, and a step -/

section Inside
variable {w : Selector} {s t : State}

/-- The pipeline, the timing registers and the cursors have no part in it. -/
theorem stepFrame_of_inside (hmem : t.mem = s.mem) (hfb : t.raster.fb = s.raster.fb) (hframes : t.framesOut = s.framesOut)
    (hvideo : t.video = s.video) (hirq : t.irq = s.irq) (hdma : t.dma = s.dma) (hsys : t.sys = s.sys) : StepFrame w s t :=
  RegistersOnly.stepFrame ⟨hmem, hfb, hframes, by rw [hvideo], hirq⟩ (.of_status (by rw [hvideo]) hdma hsys)

theorem stepFrame_fetch (p : BitVec 3) : StepFrame w s (fetch p s) := by
  rw [fetch_eq_setPipe]; exact stepFrame_of_inside rfl rfl rfl rfl rfl rfl rfl

theorem stepFrame_decodeLoad {p : BitVec 3} {i : Instr} (hd : decodeLoad p = .instr i) (h : exec i s = .next t) : StepFrame w s t := by
  unfold decodeLoad at hd
  split at hd <;> cases hd <;> cases h
  all_goals exact stepFrame_of_inside rfl rfl rfl rfl rfl rfl rfl

/-- A frame handed out has the form of the framebuffer. -/
theorem memWf_emitFrame (h : s.memWf) : s.emitFrame.memWf :=
  ⟨h.1, h.2.1, fun f hf => (List.mem_append.mp hf).elim (h.2.2 f) fun hf => List.mem_singleton.mp hf ▸ h.2.1⟩

theorem memWf_raiseVsync (h : s.memWf) : (raiseVsync s).memWf :=
  memWf_of_eq h (engineFrame_raiseVsync s).mem (by rw [raiseVsync_raster]) (raiseVsync_framesOut s)

/-- A line end hands out at most the framebuffer (R238, R286). -/
theorem memWf_lineEnd (h : s.memWf) : (lineEnd s).memWf := by
  refine ⟨by rw [(engineFrame_lineEnd s).mem]; exact h.1, by rw [lineEnd_raster]; exact h.2.1, ?_⟩
  rw [lineEnd_framesOut]
  split_ifs
  · exact (memWf_emitFrame h).2.2
  · exact h.2.2

theorem stepFrame_decodeHcount {n k : Nat} {i : Instr} (hd : decodeHcount n k = .instr i) (h : exec i s = .next t) : StepFrame w s t := by
  unfold decodeHcount at hd
  split_ifs at hd <;> cases hd <;> cases h
  -- the eighth row is the line end
  on_goal 8 => exact (engineFrame_lineEnd s).stepFrame memWf_lineEnd
  all_goals exact stepFrame_of_inside rfl rfl rfl rfl rfl rfl rfl

theorem stepFrame_decodeVcount {n : Nat} {i : Instr} (hd : decodeVcount n = .instr i) (h : exec i s = .next t) : StepFrame w s t := by
  unfold decodeVcount at hd
  split_ifs at hd <;> cases hd <;> cases h
  -- the first row hands out the frame, the second raises the flag
  on_goal 1 => exact ((EngineFrame.refl s).setTim _).emitFrame.stepFrame memWf_emitFrame
  on_goal 1 => exact (engineFrame_raiseVsync s).stepFrame memWf_raiseVsync
  all_goals exact stepFrame_of_inside rfl rfl rfl rfl rfl rfl rfl

/-- All a step can do to the memories, the status and the registers. -/
theorem stepFrame_step {rest : List Selector} (htrace : s.trace = w :: rest) (h : step s = .next t) : StepFrame w s t := by
  obtain ⟨w', rest', i, htrace', hd, hx⟩ := step_eq_next h
  obtain ⟨rfl, rfl⟩ := List.cons.inj (htrace.symm.trans htrace')
  refine (stepFrame_setTrace rest).trans ?_
  cases w with
  | cyc n => cases hd; cases hx; exact stepFrame_addCycles n
  | sync => cases hd; cases hx; exact stepFrame_advance
  | rd a => cases hd; exact stepFrame_decodeRead hx
  | wr a v => cases hd; exact stepFrame_decodeWrite hx
  | dctl b k =>
    rw [decode, decodeDctl] at hd
    split at hd <;> cases hd
    exact DmaWriter.stepFrame_dmaInstr (.inr ⟨b, k, rfl⟩) hx
  | fetchSlot p =>
    cases hd
    rw [exec_decodeFetch] at hx
    cases hx
    exact stepFrame_fetch p
  | loadSlot p => exact stepFrame_decodeLoad hd hx
  | hcount n k => exact stepFrame_decodeHcount hd hx
  | vcount n => exact stepFrame_decodeVcount hd hx

/-- The operation of a step that answers a next state. -/
theorem exists_stepFrame_of_step (h : step s = .next t) : ∃ w, StepFrame w s t := by
  obtain ⟨w, rest, -, htrace, -, -⟩ := step_eq_next h
  exact ⟨w, stepFrame_step htrace h⟩

end Inside

/-- Settles O10: every part of a step keeps the form. -/
theorem stepKeepsTheMemoryForm : Obligations.StepKeepsTheMemoryForm := by
  intro s t hs h
  obtain ⟨w, frame⟩ := exists_stepFrame_of_step h
  exact frame.form hs

/-- Settles O11: the ticks raise a request with its flag only, and the acknowledgement lowers both. -/
theorem stepKeepsTheStatusInvariant : Obligations.StepKeepsTheStatusInvariant := by
  intro s t hs h
  obtain ⟨w, frame⟩ := exists_stepFrame_of_step h
  exact frame.status hs

/-- Settles O15: the memories that a step may write are those of its operation. -/
theorem everyMemoryHasItsWriters : Obligations.EveryMemoryHasItsWriters := by
  intro s t w rest htrace h
  have writers := (stepFrame_step htrace h).memories
  refine ⟨?_, writers .vram, writers .pal, writers .spr, fun changed => ?_⟩
  · by_contra changed
    exact writers .rom changed
  · rcases changed with changed | changed | changed
    · exact writers .ram0 changed
    · exact writers .ram1 changed
    · exact writers .cart changed

/-- Settles O16: the registers that a step may write are those of its operation. -/
theorem everyRegisterHasItsWriters : Obligations.EveryRegisterHasItsWriters := by
  intro s t w rest htrace h
  obtain ⟨vctl, vena, scrh, scrhf, scrv, scrvf, ntsize, ntbase, pala, spra, dctl, drun, dsrc, ddst, dfill, dpage, bank2, bank3, kcol⟩ :=
    (stepFrame_step htrace h).registers
  exact ⟨vctl, vena, scrh, scrhf, scrv, scrvf, ntsize, ntbase, pala, spra, dctl, drun, dsrc, ddst, dfill, dpage, bank2, bank3, kcol⟩

end Sys2Proof.Machine
end

section
/-! Every event keeps the invariants of the timing engine (R45): the ticks are charged by the clock, and no operation but `Advance` moves
the engine. -/

namespace Sys2Proof.Machine

/-- The invariants hold, and these operations are pending. -/
structure TimedTrace (rest : List Selector) (s : State) : Prop where
  timing : TimingInv s
  trace : s.trace = rest

section Keeps
variable {rest : List Selector} {s t : State} (h : TimedTrace rest s)
include h

theorem TimedTrace.advance : TimedTrace rest (advance s) := ⟨timingInv_advance h.timing, (advance_trace s).trans h.trace⟩

theorem TimedTrace.iterate_cycle (k : Nat) : TimedTrace rest (cycle^[k] s) :=
  ⟨timingInv_iterate_cycle h.timing k, (engineFrame_iterate_cycle k s).trace.trans h.trace⟩

/-- An access moves neither a clock nor the engine. -/
theorem EngineSame.timedTrace (he : EngineSame s t) : TimedTrace rest t :=
  ⟨timingInv_of_eq h.timing he.tim he.raster he.pixelClock (Nat.le_of_eq he.cpuCycles.symm), he.trace.trans h.trace⟩

theorem TimedTrace.dmaStep {i : Nat} (hstep : dmaStep Config.dmaInterlock i s = some t) : TimedTrace rest t := by
  obtain ⟨rd, wr, he, hr, hw⟩ := dmaStep_eq Config.dmaInterlock i s
  rw [he] at hstep
  obtain ⟨k, rfl, -, -⟩ := dmaStepWith_eq_some hstep
  have waited := h.iterate_cycle k
  exact ⟨timingInv_grantedStep (phaseFrame_read hr) (phaseFrame_write hw) waited.timing,
    (grantedStep_trace (phaseFrame_read hr) (phaseFrame_write hw) _).trans waited.trace⟩

theorem TimedTrace.wrVwait {v : Byte} (hx : exec (.wrVwait v) s = .next t) : TimedTrace rest t := by
  obtain ⟨k, -, rfl, -⟩ := wrVwait_next hx
  exact (h.advance.iterate_cycle k).advance

theorem TimedTrace.wrDrun {v : Byte} (hx : exec (.wrDrun v) s = .next t) : TimedTrace rest t := by
  obtain ⟨u, hu, rfl⟩ := wrDrun_next hx
  have start : TimedTrace rest ((Machine.advance s).setDma { s.dma with drun := v }) :=
    EngineSame.timedTrace h.advance (engineSame_setDma _ _)
  exact (dmaLoop_induction (P := TimedTrace rest) (fun i a b ha hb => ha.dmaStep hb) start hu).advance

/-- Through every event. -/
theorem TimedTrace.exec {i : Instr} (hi : (encode i).isEvent = true) (hx : exec i s = .next t) : TimedTrace rest t := by
  rcases exec_event i s with
    hinner | ⟨n, -, hcount⟩ | hsync | ⟨u, same, haccess⟩ | ⟨u, same, hbank⟩ | ⟨v, rfl⟩ | ⟨v, rfl⟩
  · exact absurd hi (Bool.eq_false_iff.mp hinner)
  · rw [hcount] at hx; cases hx; exact ⟨timingInv_addCycles h.timing n, h.trace⟩
  · rw [hsync] at hx; cases hx; exact h.advance
  · rw [haccess] at hx; cases hx; exact same.timedTrace h.advance
  · rw [hbank] at hx; cases hx; exact same.timedTrace h
  · exact h.wrVwait hx
  · exact h.wrDrun hx

end Keeps

/-- Settles O8: the event leaves the operations after it pending, which are events too. -/
theorem stepKeepsTheTimingInvariant : Obligations.StepKeepsTheTimingInvariant := by
  intro s t h he hstep
  obtain ⟨w, rest, i, htrace, hd, hx⟩ := step_eq_next hstep
  have hi : (encode i).isEvent = true := encode_isEvent hd (he w (by simp [htrace]))
  have start : TimedTrace rest (s.setTrace rest) := ⟨timingInv_of_eq h rfl rfl rfl (Nat.le_refl _), rfl⟩
  obtain ⟨timing, trace⟩ := start.exec hi hx
  exact ⟨timing, fun z hz => he z (by rw [htrace]; exact List.mem_cons_of_mem _ (trace ▸ hz))⟩

end Sys2Proof.Machine
end

section
/-! A whole transfer (R180, R181, R198, R199): its steps one after another, the waits between them, what they leave of the registers, and
the block that a forward fill and a forward copy write (R190, R191). -/

namespace Sys2Proof.Machine

open Sys2Proof.Config (Region)

/-! ### One step of any mode -/

/-- The data latch after a step: the source byte, in the modes that read one (R187). -/
def fillAfter (m : DmaMode) (f : DmaFlags) (s : State) : Byte :=
  if transferReadsSource m then if m = .pal ∨ m = .spr then s.bankRead s.dma.dsrc else s.dmaRead f.srcv s.dma.dsrc else s.dma.dfill

/-- The secondary latch after a step: the destination byte before it, in the direct-pixel mode (R193). -/
def pageAfter (m : DmaMode) (f : DmaFlags) (s : State) : Byte :=
  if m = .apa then
    s.dmaRead f.dstv (BitVec.ofNat 16 (if s.video.vctl.getLsbD 6 then s.dma.ddst.toNat / 2 else s.dma.ddst.toNat / 4))
  else s.dma.dpage

/-- The DMA registers after a step (R186). -/
def regsAfter (m : DmaMode) (f : DmaFlags) (s : State) : DmaRegs :=
  { s.dma with
    dsrc := if transferReadsSource m then s.dma.dsrc + BitVec.ofInt 16 (transferIncrement s.video.ntsize f) else s.dma.dsrc
    ddst := s.dma.ddst + (if m = .sprclr then 4 else BitVec.ofInt 16 (transferIncrement s.video.ntsize f))
    drun := s.dma.drun - 1
    dfill := fillAfter m f s
    dpage := pageAfter m f s }

/-- What a step stores is left open: each mode has its own cell and byte. -/
def StepOf (m : DmaMode) (f : DmaFlags) (s t : State) : Prop :=
  ∃ cell v, StepDone (transferTouchesVram m f) (regsAfter m f s) cell v s t

/-- A step runs to its end, given its phases and the registers they leave. -/
theorem exists_step_of_phases {m : DmaMode} {f : DmaFlags} {i : Nat} {rd wr : State → State} {d e : DmaRegs}
    {cell : Option (Region × Nat)} {v : Byte} {s : State} (h : TimingInv s) (hp : StepPhases rd wr d e cell v s)
    (hexec : exec (dmaInstr m f i) s = ofStall (dmaStepWith Config.dmaInterlock (stepPlan m f) f i rd wr s))
    (hregs : e.counted (stepPlan m f) (BitVec.ofInt 16 (transferIncrement s.video.ntsize f)) = regsAfter m f s)
    (htouches : (stepPlan m f).touchesVram = transferTouchesVram m f) :
    ∃ t, exec (dmaInstr m f i) s = .next t ∧ StepOf m f s t := by
  obtain ⟨t, ht, hd⟩ := dmaStepWith_done (p := stepPlan m f) (f := f) (i := i) h hp
  rw [hregs, htouches] at hd
  exact ⟨t, by rw [hexec, ht]; rfl, cell, v, hd⟩

/-- A step of every mode runs to its end (R187, R190 to R197). -/
theorem exists_step {s : State} (h : TimingInv s) (m : DmaMode) (f : DmaFlags) (i : Nat) :
    ∃ t, exec (dmaInstr m f i) s = .next t ∧ StepOf m f s t := by
  cases m with
  | copy => exact exists_step_of_phases h (stepPhases_copy f s) rfl rfl rfl
  | fill => exact exists_step_of_phases h (stepPhases_fill f s) rfl rfl rfl
  | masked => exact exists_step_of_phases h (stepPhases_masked f s) rfl rfl rfl
  | apa => exact exists_step_of_phases h (stepPhases_apa f (byteAddr_pixelSlot ..)) rfl rfl rfl
  | pal => exact exists_step_of_phases h (stepPhases_pal s) rfl rfl rfl
  | spr => exact exists_step_of_phases h (stepPhases_spr s) rfl rfl rfl
  | sprclr => exact exists_step_of_phases h (stepPhases_sprclr s) rfl rfl rfl
  | altfill => exact exists_step_of_phases h (stepPhases_altfill f i s) rfl rfl rfl

/-- The step that a control byte selects is the operation of its mode and flags (R86, R87). -/
theorem dmaStep_of_exec {m : DmaMode} {f : DmaFlags} {i : Nat} {s t : State} (hm : dmaModeOf s.dma.dctl = m)
    (hf : dmaFlagsOf s.dma.dctl = f) (h : exec (dmaInstr m f i) s = .next t) : dmaStep Config.dmaInterlock i s = some t := by
  have selected : exec (dmaInstr m f i) s = ofStall (dmaStep Config.dmaInterlock i s) := by
    rw [dmaStep, hm, hf]
    cases m <;> rfl
  rw [selected] at h
  cases hstep : dmaStep Config.dmaInterlock i s with
  | none => rw [hstep] at h; cases h
  | some u => rw [hstep] at h; cases h; rfl

/-! ### The states between the steps -/

/-- The state after `n` steps of a mode. -/
def afterSteps (m : DmaMode) (f : DmaFlags) (s : State) : Nat → State
  | 0 => s
  | n + 1 =>
    match exec (dmaInstr m f n) (afterSteps m f s n) with
    | .next t => t
    | .fault _ | .refused _ => afterSteps m f s n

theorem afterSteps_succ {m : DmaMode} {f : DmaFlags} {s t : State} {n : Nat} (h : exec (dmaInstr m f n) (afterSteps m f s n) = .next t) :
    afterSteps m f s (n + 1) = t := by
  rw [afterSteps, h]

section Steps
variable {m : DmaMode} {f : DmaFlags} {s : State} (h : TimingInv s)
include h

theorem timingInv_afterSteps (n : Nat) : TimingInv (afterSteps m f s n) := by
  induction n with
  | zero => exact h
  | succ n ih =>
    obtain ⟨t, ht, cell, v, hd⟩ := exists_step ih m f n
    rw [afterSteps_succ ht]
    exact hd.timingInv ih

theorem exec_afterSteps (n : Nat) : exec (dmaInstr m f n) (afterSteps m f s n) = .next (afterSteps m f s (n + 1)) := by
  obtain ⟨t, ht, -⟩ := exists_step (timingInv_afterSteps h n) m f n
  rw [afterSteps_succ ht, ht]

/-- Each is reached from the one before it by a step. -/
theorem stepOf_afterSteps (n : Nat) : StepOf m f (afterSteps m f s n) (afterSteps m f s (n + 1)) := by
  obtain ⟨t, ht, hd⟩ := exists_step (timingInv_afterSteps (m := m) (f := f) h n) m f n
  rwa [afterSteps_succ ht]

theorem execAll_afterSteps (n : Nat) : execAll ((List.range n).map (dmaInstr m f)) s = some (afterSteps m f s n) := by
  induction n with
  | zero => rfl
  | succ n ih =>
    rw [List.range_succ, List.map_append, execAll_append, ih]
    exact execAll_cons (exec_afterSteps h n) []

/-- A control byte stands through all steps, so a transfer does those of its mode (R157, R181). -/
theorem dctl_afterSteps (n : Nat) : (afterSteps m f s n).dma.dctl = s.dma.dctl := by
  induction n with
  | zero => rfl
  | succ n ih =>
    obtain ⟨cell, v, hd⟩ := stepOf_afterSteps (m := m) (f := f) h n
    rw [hd.dma]
    exact ih

theorem dmaLoop_afterSteps (hm : dmaModeOf s.dma.dctl = m) (hf : dmaFlagsOf s.dma.dctl = f) (n i : Nat) :
    dmaLoop Config.dmaInterlock n i (afterSteps m f s i) = some (afterSteps m f s (i + n)) := by
  induction n generalizing i with
  | zero => rfl
  | succ n ih =>
    have step : dmaStep Config.dmaInterlock i (afterSteps m f s i) = some (afterSteps m f s (i + 1)) :=
      dmaStep_of_exec (by rw [dctl_afterSteps h]; exact hm) (by rw [dctl_afterSteps h]; exact hf) (exec_afterSteps h i)
    rw [dmaLoop_succ, step, Option.bind_some, ih, Nat.add_right_comm, Nat.add_assoc]

end Steps

/-! ### The registers after the steps -/

/-- What `n` steps leave of the registers and of the rest that no tick writes (R181, R186, R198). -/
structure RegistersMoved (m : DmaMode) (f : DmaFlags) (n : Nat) (s t : State) : Prop where
  dctl : t.dma.dctl = s.dma.dctl
  dsrc : t.dma.dsrc = s.dma.dsrc + BitVec.ofInt 16 (if transferReadsSource m then n * transferIncrement s.video.ntsize f else 0)
  ddst : t.dma.ddst = s.dma.ddst + BitVec.ofInt 16 (if m = .sprclr then 4 * n else n * transferIncrement s.video.ntsize f)
  dfill : transferReadsSource m = false → t.dma.dfill = s.dma.dfill
  dpage : m ≠ .apa → t.dma.dpage = s.dma.dpage
  sys : t.sys = s.sys
  readsOut : t.readsOut = s.readsOut
  trace : t.trace = s.trace
  video : t.video = { s.video with vsta := t.video.vsta }

section Moved
variable {m : DmaMode} {f : DmaFlags} {n : Nat} {s u t : State}

theorem RegistersMoved.zero (m : DmaMode) (f : DmaFlags) (s : State) : RegistersMoved m f 0 s s where
  dctl := rfl
  dsrc := by simp
  ddst := by simp
  dfill _ := rfl
  dpage _ := rfl
  sys := rfl
  readsOut := rfl
  trace := rfl
  video := rfl

theorem RegistersMoved.ntsize (h : RegistersMoved m f n s t) : t.video.ntsize = s.video.ntsize := by rw [h.video]

theorem RegistersMoved.vctl (h : RegistersMoved m f n s t) : t.video.vctl = s.video.vctl := by rw [h.video]

/-- One step more. -/
theorem RegistersMoved.succ (h : RegistersMoved m f n s u) (hstep : StepOf m f u t) : RegistersMoved m f (n + 1) s t := by
  obtain ⟨cell, v, hd⟩ := hstep
  have next (a : BitVec 16) (inc : Int) := add_ofInt_succ_mul a n inc
  have dsrc : t.dma.dsrc =
      if transferReadsSource m then u.dma.dsrc + BitVec.ofInt 16 (transferIncrement u.video.ntsize f) else u.dma.dsrc := by
    rw [hd.dma]; rfl
  have ddst : t.dma.ddst = u.dma.ddst + (if m = .sprclr then 4 else BitVec.ofInt 16 (transferIncrement u.video.ntsize f)) := by
    rw [hd.dma]; rfl
  have dfill : t.dma.dfill = fillAfter m f u := by rw [hd.dma]; rfl
  have dpage : t.dma.dpage = pageAfter m f u := by rw [hd.dma]; rfl
  exact
    { dctl := by rw [hd.dma]; exact h.dctl
      dsrc := by
        rw [dsrc, h.ntsize, h.dsrc]
        split_ifs
        · exact next _ _
        · rfl
      ddst := by
        rw [ddst, h.ntsize, h.ddst]
        split_ifs
        · rw [mul_comm, mul_comm (4 : Int)]; exact next _ 4
        · exact next _ _
      dfill := fun hm => by rw [dfill, fillAfter, if_neg (Bool.eq_false_iff.mp hm), h.dfill hm]
      dpage := fun hm => by rw [dpage, pageAfter, if_neg hm, h.dpage hm]
      sys := hd.sys.trans h.sys
      readsOut := hd.readsOut.trans h.readsOut
      trace := hd.trace.trans h.trace
      video := by rw [hd.video, h.video] }

theorem registersMoved_afterSteps (h : TimingInv s) (n : Nat) : RegistersMoved m f n s (afterSteps m f s n) := by
  induction n with
  | zero => exact .zero m f s
  | succ n ih => exact ih.succ (stepOf_afterSteps h n)

end Moved

/-! ### The waits -/

/-- The engines of two states run alike: their registers and their clocks agree. -/
structure RunsAlike (s t : State) : Prop extends EngineAgree s t where
  cpuCycles : t.cpuCycles = s.cpuCycles
  pixelClock : t.pixelClock = s.pixelClock

section Alike
variable {s t u : State}

theorem RunsAlike.trans (h : RunsAlike s t) (k : RunsAlike t u) : RunsAlike s u where
  tim := k.tim.trans h.tim
  video := k.video.trans h.video
  irq := k.irq.trans h.irq
  frames := k.frames.trans h.frames
  cpuCycles := k.cpuCycles.trans h.cpuCycles
  pixelClock := k.pixelClock.trans h.pixelClock

theorem RunsAlike.cycle (h : RunsAlike s t) : RunsAlike (cycle s) (cycle t) where
  toEngineAgree := h.toEngineAgree.cycle h.cpuCycles h.pixelClock
  cpuCycles := by rw [cycle_cpuCycles, cycle_cpuCycles, h.cpuCycles]
  pixelClock := by rw [cycle_pixelClock, cycle_pixelClock, h.cpuCycles, h.pixelClock]

theorem RunsAlike.iterate_cycle (h : RunsAlike s t) (n : Nat) : RunsAlike (Machine.cycle^[n] s) (Machine.cycle^[n] t) := by
  induction n with
  | zero => exact h
  | succ n ih => rw [Function.iterate_succ_apply', Function.iterate_succ_apply']; exact ih.cycle

theorem RunsAlike.vramBusy (h : RunsAlike s t) : t.vramBusy = s.vramBusy := by rw [State.vramBusy, h.tim]; rfl

end Alike

/-- A step of a transfer as the engine sees it: `k` cycles of waiting, and two more. -/
structure StepWait (touches : Bool) (k : Nat) (s t : State) : Prop where
  none : touches = false → k = 0
  busy : ∀ j < k, (cycle^[j] s).vramBusy = true
  free : touches = true → (cycle^[k] s).vramBusy = false
  alike : RunsAlike (cycle^[k + 2] s) t

theorem StepDone.exists_wait {touches : Bool} {d : DmaRegs} {cell : Option (Region × Nat)} {v : Byte} {s t : State}
    (hd : StepDone touches d cell v s t) (h : TimingInv s) : ∃ k, StepWait touches k s t := by
  obtain ⟨k, hnone, hbusy, hfree, hcycles, hengine, -⟩ := hd.waits
  have clocks : (cycle^[k + 2] s).cpuCycles = t.cpuCycles := by rw [hcycles, (iterate_cycle_clocks (k + 2) s).1, Nat.add_assoc]
  have charged : (cycle^[k + 2] s).caughtUp := by
    rw [Function.iterate_succ_apply']
    exact caughtUp_cycle (timingInv_iterate_cycle h (k + 1)).clock
  have hvideo := (engineFrame_iterate_cycle (k + 2) s).video
  refine ⟨k, hnone, hbusy, hfree, ⟨hengine.tim, ?_, hengine.request, hengine.frames⟩, clocks.symm, ?_⟩
  · rw [hd.video, hvideo, hengine.flag]; rfl
  · rw [hd.clock, charged, clocks]

section Waits
variable {m : DmaMode} {f : DmaFlags} {s z : State} {k : Nat → Nat}
  (hk : ∀ n, StepWait (transferTouchesVram m f) (k n) (afterSteps m f s n) (afterSteps m f s (n + 1))) (hz : RunsAlike z s)
include hk hz

/-- Two cycles a step, and the waits (R184, R199). -/
theorem runsAlike_afterSteps (n : Nat) : RunsAlike (cycle^[2 * n + waitsBefore k n] z) (afterSteps m f s n) := by
  induction n with
  | zero => exact hz
  | succ n ih =>
    have cycles : 2 * (n + 1) + waitsBefore k (n + 1) = (k n + 2) + (2 * n + waitsBefore k n) := by rw [waitsBefore_succ]; omega
    rw [cycles, Function.iterate_add_apply]
    exact (ih.iterate_cycle (k n + 2)).trans (hk n).alike

/-- The port as a step finds it, in the cycles of the transfer. -/
theorem vramBusy_afterSteps (n j : Nat) :
    (cycle^[2 * n + waitsBefore k n + j] z).vramBusy = (cycle^[j] (afterSteps m f s n)).vramBusy := by
  rw [Nat.add_comm, Function.iterate_add_apply]
  exact ((runsAlike_afterSteps hk hz n).iterate_cycle j).vramBusy.symm

theorem transferWaits_afterSteps (n : Nat) : TransferWaits (transferTouchesVram m f) n k z where
  none hfalse i _ := (hk i).none hfalse
  busy i _ j hj := by rw [vramBusy_afterSteps hk hz]; exact (hk i).busy j hj
  free htrue i _ := by rw [vramBusy_afterSteps hk hz]; exact (hk i).free htrue

theorem engineAfter_afterSteps (n : Nat) : EngineAfter (2 * n + waitsBefore k n) z (afterSteps m f s n) :=
  have alike := runsAlike_afterSteps hk hz n
  ⟨alike.tim, congrArg VideoRegs.vsta alike.video, alike.irq, alike.frames⟩

end Waits

/-! ### A write of `DRUN` -/

/-- The state in which the steps of a transfer start (R160). -/
def transferStart (v : Byte) (s : State) : State := (advance s).setDma { s.dma with drun := v }

theorem timingInv_transferStart {s : State} (h : TimingInv s) (v : Byte) : TimingInv (transferStart v s) :=
  timingInv_of_eq (timingInv_advance h) rfl rfl rfl (Nat.le_refl _)

theorem exists_transferSteps_eq_succ (v : Byte) : ∃ n, transferSteps v = n + 1 := by
  have zero : v.toNat = 0 ↔ v = 0 := by rw [BitVec.toNat_eq]; rfl
  rw [Nat.exists_eq_add_one, transferSteps]
  split_ifs with h
  · decide
  · exact Nat.pos_of_ne_zero (mt zero.mp h)

section Run
variable {m : DmaMode} {f : DmaFlags} {v : Byte} {s : State} (h : TimingInv s)
include h

/-- A write of `DRUN` answers the state after its steps. -/
theorem exec_wrDrun_afterSteps (hm : m = dmaModeOf s.dma.dctl) (hf : f = dmaFlagsOf s.dma.dctl) :
    exec (.wrDrun v) s = .next (afterSteps m f (transferStart v s) (transferSteps v)) := by
  have start := timingInv_transferStart h v
  have loop := dmaLoop_afterSteps start hm.symm hf.symm (transferSteps v) 0
  rw [Nat.zero_add] at loop
  refine exec_wrDrun loop ?_
  obtain ⟨n, hn⟩ := exists_transferSteps_eq_succ v
  obtain ⟨cell, b, last⟩ := stepOf_afterSteps (m := m) (f := f) start n
  rw [hn]
  exact last.clock

/-- The waits of a transfer, step by step. -/
theorem exists_waits_afterSteps : ∃ k : Nat → Nat, ∀ n,
    StepWait (transferTouchesVram m f) (k n) (afterSteps m f (transferStart v s) n) (afterSteps m f (transferStart v s) (n + 1)) := by
  have start := timingInv_transferStart h v
  have waits (n : Nat) : ∃ k, StepWait (transferTouchesVram m f) k (afterSteps m f (transferStart v s) n)
      (afterSteps m f (transferStart v s) (n + 1)) := by
    obtain ⟨cell, b, hd⟩ := stepOf_afterSteps (m := m) (f := f) start n
    exact hd.exists_wait (timingInv_afterSteps start n)
  exact Classical.skolem.mp waits

/-- The registers after the steps, from those in which `DRUN` is written: the ticks due move none but the status byte. -/
theorem registersMoved_transferStart (n : Nat) :
    RegistersMoved m f n (s.setDma { s.dma with drun := v }) (afterSteps m f (transferStart v s) n) :=
  have moved := registersMoved_afterSteps (m := m) (f := f) (timingInv_transferStart h v) n
  have ntsize : (transferStart v s).video.ntsize = s.video.ntsize := advance_ntsize s
  { dctl := moved.dctl
    dsrc := by rw [moved.dsrc, ntsize]; rfl
    ddst := by rw [moved.ddst, ntsize]; rfl
    dfill := moved.dfill
    dpage := moved.dpage
    sys := moved.sys.trans (advance_sys s)
    readsOut := moved.readsOut.trans (advance_readsOut s)
    trace := moved.trace.trans (advance_trace s)
    video := moved.video.trans (by rw [show (transferStart v s).video = (advance s).video from rfl, advance_video]; rfl) }

end Run

/-- The engines of the start of a transfer and of the state in which the ticks due have run are alike. -/
theorem runsAlike_transferStart (v : Byte) (s : State) : RunsAlike (advance s) (transferStart v s) :=
  ⟨⟨rfl, rfl, rfl, rfl⟩, rfl, rfl⟩

/-- Settles O44: the registers of the states before and after the last step are those that the steps so far leave, its latches those of
`regsAfter`, its clocks those of the cycles charged and waited. -/
theorem transferEnd : Obligations.TransferEnd := by
  intro v s m f h hm hf
  have start := timingInv_transferStart h v
  obtain ⟨n, hn⟩ := exists_transferSteps_eq_succ v
  have hexec := exec_wrDrun_afterSteps (v := v) h hm hf
  obtain ⟨k, hk⟩ := exists_waits_afterSteps (m := m) (f := f) (v := v) h
  have before := registersMoved_transferStart (m := m) (f := f) (v := v) h n
  have after := registersMoved_transferStart (m := m) (f := f) (v := v) h (n + 1)
  obtain ⟨cell, b, last⟩ := stepOf_afterSteps (m := m) (f := f) start n
  have clocks := (runsAlike_afterSteps hk (runsAlike_transferStart v s) (n + 1)).cpuCycles
  rw [(iterate_cycle_clocks _ _).1, advance_cpuCycles, ← Nat.add_assoc] at clocks
  have rom := (DmaWriter.stepFrame_wrDrun (.inl ⟨v, rfl⟩) hexec).memories .rom
  rw [hn] at hexec rom ⊢
  refine ⟨_, afterSteps m f (transferStart v s) n, k, _, hexec, rfl, transferWaits_afterSteps hk (runsAlike_transferStart v s) (n + 1),
    clocks, engineAfter_afterSteps hk (runsAlike_transferStart v s) (n + 1), last.clock, execAll_afterSteps start n,
    exec_afterSteps start n, before.dsrc, before.ddst, wrDrun_drun hexec, after.dctl, after.dsrc, after.ddst, ?_, ?_,
    by_contra rom, after.sys, after.readsOut, after.trace, after.video⟩
  · rw [last.dma]
    exact ite_congr rfl (fun _ => rfl) fun hread => before.dfill (Bool.eq_false_iff.mpr hread)
  · rw [last.dma]
    exact ite_congr rfl (fun _ => by rw [before.vctl]; rfl) before.dpage

end Sys2Proof.Machine
end

section
/-! The block that a forward transfer to VRAM writes (R190, R191): one byte a step, at 16384 places in a circle. -/

namespace Sys2Proof.Machine

open Sys2Proof.Config (Region)

/-! ### Stores to a block of VRAM, one after another -/

/-- The `i`-th place of a block of VRAM that starts at an address of the destination counter (R16, R183). -/
def blockCell (d : Addr) (i : Nat) : Option (Region × Nat) := some (.vram, (d + BitVec.ofNat 16 i).toNat % 16384)

/-- A place of VRAM is the one of its distance from the start of the block, round the end of the memory. -/
theorem blockCell_eq_iff {d : Addr} {i : Nat} (hi : i < 16384) (r : Region) (x : Nat) :
    blockCell d i = some (r, x) ↔ r = .vram ∧ x < 16384 ∧ (x + 65536 - d.toNat) % 16384 = i := by
  have place : (d + BitVec.ofNat 16 i).toNat % 16384 = x ↔ x < 16384 ∧ (x + 65536 - d.toNat) % 16384 = i := by
    have hd := d.isLt
    rw [BitVec.toNat_add, BitVec.toNat_ofNat]
    omega
  rw [blockCell, Option.some_inj, Prod.mk.injEq, place]
  exact and_congr_left fun _ => eq_comm

section Block
variable {a : Nat → State} {b : Nat → Byte} {d : Addr} (hstores : ∀ n, StoresOnly (blockCell d n) (b n) (a n) (a (n + 1)))
include hstores

/-- The other memories stand. -/
theorem peek_block_of_ne {r : Region} (hr : r ≠ .vram) (n x : Nat) : (a n).peek r x = (a 0).peek r x := by
  induction n with
  | zero => rfl
  | succ n ih => rw [hstores n r x, blockCell, if_neg fun e => hr (by cases e; rfl), ih]

/-- A block no longer than VRAM holds the bytes written, each once, and no other byte is written. -/
theorem peek_block {n : Nat} (hn : n ≤ 16384) (r : Region) (x : Nat) : (a n).peek r x =
    if r = .vram ∧ x < 16384 ∧ (x + 65536 - d.toNat) % 16384 < n then b ((x + 65536 - d.toNat) % 16384) else (a 0).peek r x := by
  induction n with
  | zero => rw [if_neg fun inside => Nat.not_lt_zero _ inside.2.2]
  | succ n ih =>
    rw [hstores n r x, ih (by omega), if_congr (blockCell_eq_iff hn r x) rfl rfl]
    generalize (x + 65536 - d.toNat) % 16384 = place
    by_cases hvram : r = .vram ∧ x < 16384
    · obtain ⟨hr, hx⟩ := hvram
      simp only [hr, hx, true_and]
      rcases Nat.lt_trichotomy place n with hlt | rfl | hgt
      · rw [if_neg hlt.ne, if_pos hlt, if_pos (by omega)]
      · rw [if_pos rfl, if_pos (Nat.lt_succ_self _)]
      · rw [if_neg hgt.ne', if_neg (by omega), if_neg (by omega)]
    · rw [if_neg fun e => hvram ⟨e.1, e.2.1⟩, if_neg fun e => hvram ⟨e.1, e.2.1⟩, if_neg fun e => hvram ⟨e.1, e.2.1⟩]

end Block

theorem transferSteps_le (v : Byte) : transferSteps v ≤ 16384 := by
  have hv := v.isLt
  rw [transferSteps]
  split_ifs <;> omega

/-! ### Forward transfers -/

/-- Without `VERT` and `REV` the counters count up (R182). -/
theorem transferIncrement_forward {f : DmaFlags} (hvert : f.vert = false) (hrev : f.rev = false) (ntsize : Byte) :
    transferIncrement ntsize f = 1 := by
  rw [transferIncrement, hvert, hrev]; rfl

section Forward
variable {m : DmaMode} {f : DmaFlags} {v : Byte} {s : State} (h : TimingInv s) (hvert : f.vert = false) (hrev : f.rev = false) (n : Nat)
include h hvert hrev

/-- The destination of step `n`. -/
theorem ddst_forward (hm : m ≠ .sprclr) :
    (afterSteps m f (transferStart v s) n).dma.ddst = s.dma.ddst + BitVec.ofNat 16 n := by
  rw [(registersMoved_transferStart h n).ddst, if_neg hm, transferIncrement_forward hvert hrev, mul_one, BitVec.ofInt_natCast]; rfl

/-- The source of step `n`. -/
theorem dsrc_forward (hm : transferReadsSource m = true) :
    (afterSteps m f (transferStart v s) n).dma.dsrc = s.dma.dsrc + BitVec.ofNat 16 n := by
  rw [(registersMoved_transferStart h n).dsrc, if_pos hm, transferIncrement_forward hvert hrev, mul_one, BitVec.ofInt_natCast]; rfl

end Forward

/-- The byte a fill stores (R191). -/
theorem storesOnly_afterSteps_fill {f : DmaFlags} {s : State} (h : TimingInv s) (n : Nat) :
    StoresOnly ((afterSteps .fill f s n).dmaCell f.dstv (afterSteps .fill f s n).dma.ddst) (afterSteps .fill f s n).dma.dfill
      (afterSteps .fill f s n) (afterSteps .fill f s (n + 1)) := by
  obtain ⟨-, ⟨t, ht, hd⟩, -⟩ := copyAndFillSteps f n _ (timingInv_afterSteps (m := .fill) (f := f) h n)
  rw [afterSteps_succ (m := .fill) ht]
  exact hd.stores

/-- The byte a copy stores (R190). -/
theorem storesOnly_afterSteps_copy {f : DmaFlags} {s : State} (h : TimingInv s) (n : Nat) :
    StoresOnly ((afterSteps .copy f s n).dmaCell f.dstv (afterSteps .copy f s n).dma.ddst)
      ((afterSteps .copy f s n).dmaRead f.srcv (afterSteps .copy f s n).dma.dsrc) (afterSteps .copy f s n)
      (afterSteps .copy f s (n + 1)) := by
  obtain ⟨⟨t, ht, hd⟩, -⟩ := copyAndFillSteps f n _ (timingInv_afterSteps (m := .copy) (f := f) h n)
  rw [afterSteps_succ (m := .copy) ht]
  exact hd.stores

/-- A banked read sees no VRAM (R56, R57). -/
theorem bankRead_of_peek {s u : State} (hsys : u.sys = s.sys) (hpeek : ∀ r ≠ Region.vram, ∀ x, u.peek r x = s.peek r x) (a : Addr) :
    u.bankRead a = s.bankRead a := by
  have system (w : BitVec 2) : (s.bind w).region ≠ some .vram := by
    unfold State.bind
    split
    · decide
    · decide
    all_goals
      unfold bindSwitched
      split_ifs <;> decide
  unfold State.bankRead
  rw [State.bind_congr hsys]
  cases hr : (s.bind (addrWindow a)).region with
  | none => simp only [hr]
  | some r => simp only [hr]; exact hpeek r (fun e => system _ (e ▸ hr)) _

theorem peek_transferStart (v : Byte) (s : State) (r : Region) (x : Nat) : (transferStart v s).peek r x = s.peek r x := advance_peek s r x

/-- The control byte of a forward fill of VRAM (R86, R87). -/
theorem dctl_forward_fill {b : Byte} (hb : b &&& 0x77 = 0x41) :
    dmaModeOf b = .fill ∧ (dmaFlagsOf b).dstv = true ∧ (dmaFlagsOf b).vert = false ∧ (dmaFlagsOf b).rev = false := by
  decide +revert

/-- The control byte of a forward copy from system memory to VRAM (R86, R87). -/
theorem dctl_forward_copy {b : Byte} (hb : b &&& 0xF7 = 0x40) :
    dmaModeOf b = .copy ∧ (dmaFlagsOf b).srcv = false ∧ (dmaFlagsOf b).dstv = true ∧ (dmaFlagsOf b).vert = false ∧
      (dmaFlagsOf b).rev = false := by
  decide +revert

/-- Settles O45: every step stores the latch, which stands, in the next place. -/
theorem fillTransfer : Obligations.FillTransfer := by
  intro v s h hdctl
  obtain ⟨hm, hdstv, hvert, hrev⟩ := dctl_forward_fill hdctl
  have hexec := exec_wrDrun_afterSteps (v := v) h hm.symm rfl
  generalize dmaFlagsOf s.dma.dctl = f at *
  have stores (n : Nat) : StoresOnly (blockCell s.dma.ddst n) s.dma.dfill (afterSteps .fill f (transferStart v s) n)
      (afterSteps .fill f (transferStart v s) (n + 1)) := by
    have stored := storesOnly_afterSteps_fill (f := f) (timingInv_transferStart h v) n
    rw [hdstv, ddst_forward h hvert hrev n (by decide), (registersMoved_transferStart h n).dfill rfl] at stored
    exact stored
  refine ⟨_, hexec, fun r x => ?_⟩
  rw [peek_block stores (transferSteps_le v), afterSteps, peek_transferStart]

/-- Settles O46: no step writes a source, so every step reads the byte that stood there before the transfer. -/
theorem copyTransfer : Obligations.CopyTransfer := by
  intro v s h hdctl
  obtain ⟨hm, hsrcv, hdstv, hvert, hrev⟩ := dctl_forward_copy hdctl
  have hexec := exec_wrDrun_afterSteps (v := v) h hm.symm rfl
  generalize dmaFlagsOf s.dma.dctl = f at *
  have start := timingInv_transferStart h v
  have stores (n : Nat) : StoresOnly (blockCell s.dma.ddst n)
      ((afterSteps .copy f (transferStart v s) n).bankRead (s.dma.dsrc + BitVec.ofNat 16 n)) (afterSteps .copy f (transferStart v s) n)
      (afterSteps .copy f (transferStart v s) (n + 1)) := by
    have stored := storesOnly_afterSteps_copy (f := f) start n
    rw [hdstv, hsrcv, ddst_forward h hvert hrev n (by decide), dsrc_forward h hvert hrev n rfl] at stored
    exact stored
  have source (n : Nat) (addr : Addr) : (afterSteps .copy f (transferStart v s) n).bankRead addr = s.bankRead addr :=
    bankRead_of_peek (registersMoved_transferStart h n).sys
      (fun r hr x => (peek_block_of_ne stores hr n x).trans (peek_transferStart v s r x)) addr
  simp only [source] at stores
  refine ⟨_, hexec, ?_, fun r x => ?_⟩
  · obtain ⟨n, hn⟩ := exists_transferSteps_eq_succ v
    obtain ⟨cell, b, last⟩ := stepOf_afterSteps (m := .copy) (f := f) start n
    rw [hn, last.dma, Nat.add_sub_cancel, ← source n, ← dsrc_forward (m := .copy) h hvert hrev n rfl]
    show State.dmaRead _ f.srcv _ = _
    rw [hsrcv]; rfl
  · rw [peek_block stores (transferSteps_le v), afterSteps, peek_transferStart]

end Sys2Proof.Machine
end
